-- ==== Sys2Proof/Word.lean ====
section
/-! DEFINITION. The data words of the HUFB block: 32-bit words, symbols, counts, node indices, stream digits, tree nodes
and code-table entries (00_scope.md R7, R10, R11; 10_state.md R41 to R45). -/

namespace Sys2Proof

/-- A 32-bit register or command word; bit 0 is the least significant (R10). -/
abbrev Word := BitVec 32

/-- A symbol, SYM_W = 8 bits (R7). -/
abbrev Sym := BitVec 8

/-- A frequency count, FREQ_W = 24 bits (R7). -/
abbrev Count := BitVec 24

/-- A node weight, WEIGHT_W = 32 bits, unsigned (R7, R155). -/
abbrev Weight := BitVec 32

/-- A node index, 9 bits (R8 (c), R42). -/
abbrev NodeIx := BitVec 9

/-- A finite sequence of binary digits, the first digit first (R11): `false` is 0 and `true` is 1. -/
abbrev Digits := List Bool

/-- One entry of node memory, the tagged variant of R42. -/
inductive Node where
  | leaf (sym : Sym) (weight : Weight)
  | internal (weight : Weight) (left right : NodeIx)
  deriving DecidableEq, Repr, Inhabited

/-- `wt(N)`: the weight of either kind of node (R150). -/
def Node.weight : Node → Weight
  | .leaf _ w => w
  | .internal w _ _ => w

/-- The indices of a node's children, left child first. -/
def Node.children : Node → List NodeIx
  | .leaf _ _ => []
  | .internal _ l r => [l, r]

/-- One code-table entry: its length and its eight words (R44). -/
structure CtEntry where
  len : BitVec 8
  words : Vector Word 8
  deriving DecidableEq, Repr

end Sys2Proof
end

