-- ==== Sys2Proof/Config.lean ====
section
/-! DEFINITION. What is fixed for this hardware (00_scope.md R7), and the free values of the spec: constants without a body. -/

namespace Sys2Proof.Config

/-- SYM_W, bits per symbol (R7). -/
def symW : Nat := 8

/-- NSYM = 2^SYM_W, the number of symbol values (R7). -/
def nsym : Nat := 256

/-- FREQ_W, bits per count (R7). -/
def freqW : Nat := 24

/-- FREQ_MAX = 2^FREQ_W - 1, the largest count (R7). -/
def freqMax : Count := 0xFFFFFF#24

/-- MAX_LEN, the longest code word in bits (R7). -/
def maxLen : Nat := 255

/-- CT_WORDS, 32-bit words in one code word store (R7). -/
def ctWords : Nat := 8

/-- NODE_MAX, node memory entries (R7). -/
def nodeMax : Nat := 511

/-- OUTQ_BITS, capacity of the output bit queue (R7). -/
def outqBits : Nat := 1024

/-- SYMQ_DEPTH, capacity of the output symbol queue (R7). -/
def symqDepth : Nat := 32

/-- WIN_BYTES, size of the register window in bytes (R7). -/
def winBytes : Nat := 256

/-- The constant of register ID (R24): a tag and the command set's version. -/
def idValue : Word := 0x485546#24 ++ 0x01#8

/-- The constant of register PARAM (R25), put together from its four fields. -/
def paramValue : Word :=
  BitVec.ofNat 8 symqDepth ++ BitVec.ofNat 8 maxLen ++ BitVec.ofNat 8 freqW ++ BitVec.ofNat 8 symW

/-- The constant of register PARAM2 (R26), put together from its two fields. -/
def param2Value : Word := 0#7 ++ BitVec.ofNat 9 nodeMax ++ BitVec.ofNat 16 outqBits

/-- FREE VALUE. The k-th free draw of R39: what a read of a starred register returns while BUSY = 1. No body, so nothing
can be proved of its value (log 3). -/
opaque draw : Nat → Word

/-- FREE VALUE. The unspecified content of a node memory entry that State leaves out (R42, R52; log 4). -/
opaque unspecifiedNode : Nat → Node

end Sys2Proof.Config
end

