-- ==== Sys2Proof/Syntax.lean ====
section
/-! DEFINITION. The commands of the block: one constructor per row of spec/opcode_table.json (30_encoding.md R106). -/

namespace Sys2Proof

/-- A command with its operands as 30_encoding.md R103 and R104 assemble them: `s` a symbol, `w` a code-table word index,
`i` a node index, `n` the bit count 1..32 of format C. -/
inductive Instr where
  /-- R132 -/
  | nop
  /-- R133 -/
  | sreset
  /-- R140 -/
  | clrfreq
  /-- R141 -/
  | incfreq (s : Sym)
  /-- R142 -/
  | setfreq (s : Sym)
  /-- R143 -/
  | rdfreq (s : Sym)
  /-- R150 -/
  | build
  /-- R158 -/
  | rdnode (i : NodeIx)
  /-- R170 -/
  | derive
  /-- R175 -/
  | clrct
  /-- R176 -/
  | wrctl (s : Sym)
  /-- R177 -/
  | wrctw (s : Sym) (w : BitVec 3)
  /-- R178 -/
  | rdctl (s : Sym)
  /-- R179 -/
  | rdctw (s : Sym) (w : BitVec 3)
  /-- R190 -/
  | enc (s : Sym)
  /-- R191 -/
  | rdout (n : Nat)
  /-- R192 -/
  | clrout
  /-- R210 -/
  | dec (n : Nat)
  /-- R213 -/
  | decend
  /-- R214 -/
  | popsym
  /-- R215 -/
  | decrst
  deriving DecidableEq, Repr

/-- The mnemonics of R106, for the assembler of R112. -/
inductive Mnemonic where
  | NOP | SRESET | CLRFREQ | INCFREQ | SETFREQ | RDFREQ | BUILD | RDNODE | DERIVE | CLRCT | WRCTL | WRCTW | RDCTL | RDCTW
  | ENC | RDOUT | CLROUT | DEC | DECEND | POPSYM | DECRST
  deriving DecidableEq, Repr

end Sys2Proof
end

