-- ==== Sys2Proof/WellFormed.lean ====
section
/-! DEFINITION. Which commands the encoding can hold, and the assembler's operand checks (30_encoding.md R104, R112). -/

namespace Sys2Proof

/-- The count of format C is between 1 and 32 (R104). -/
def countOk (n : Nat) : Bool := decide (1 ≤ n) && decide (n ≤ 32)

/-- A command whose operands the encoding can hold. SYM, WIDX and NODE are in range by their types (R103); the count of
format C is checked (R104). -/
def Instr.wf : Instr → Bool
  | .nop => true
  | .sreset => true
  | .clrfreq => true
  | .incfreq _ => true
  | .setfreq _ => true
  | .rdfreq _ => true
  | .build => true
  | .rdnode _ => true
  | .derive => true
  | .clrct => true
  | .wrctl _ => true
  | .wrctw _ _ => true
  | .rdctl _ => true
  | .rdctw _ _ => true
  | .enc _ => true
  | .rdout n => countOk n
  | .clrout => true
  | .dec n => countOk n
  | .decend => true
  | .popsym => true
  | .decrst => true

/-- An assembler operand SYM: refused when s > 255 (R112). -/
def asmSym (s : Nat) : Option Sym := if s ≤ 255 then some (BitVec.ofNat 8 s) else none

/-- An assembler operand WIDX: refused when w > 7 (R112). -/
def asmWidx (w : Nat) : Option (BitVec 3) := if w ≤ 7 then some (BitVec.ofNat 3 w) else none

/-- An assembler operand NODE: refused when i > 511 (R112). -/
def asmNode (i : Nat) : Option NodeIx := if i ≤ 511 then some (BitVec.ofNat 9 i) else none

/-- An assembler operand n: refused when n < 1 or n > 32 (R112). -/
def asmCount (n : Nat) : Option Nat := if countOk n then some n else none

/-- The assembler of R112 on a mnemonic and its operands as numbers: the command, or none where an operand is out of its
field's range or the operands are not those of the mnemonic's format. -/
def assemble : Mnemonic → List Nat → Option Instr
  | .NOP, [] => some .nop
  | .SRESET, [] => some .sreset
  | .CLRFREQ, [] => some .clrfreq
  | .INCFREQ, [s] => (asmSym s).map .incfreq
  | .SETFREQ, [s] => (asmSym s).map .setfreq
  | .RDFREQ, [s] => (asmSym s).map .rdfreq
  | .BUILD, [] => some .build
  | .RDNODE, [i] => (asmNode i).map .rdnode
  | .DERIVE, [] => some .derive
  | .CLRCT, [] => some .clrct
  | .WRCTL, [s] => (asmSym s).map .wrctl
  | .WRCTW, [s, w] => (asmSym s).bind fun s => (asmWidx w).map fun w => .wrctw s w
  | .RDCTL, [s] => (asmSym s).map .rdctl
  | .RDCTW, [s, w] => (asmSym s).bind fun s => (asmWidx w).map fun w => .rdctw s w
  | .ENC, [s] => (asmSym s).map .enc
  | .RDOUT, [n] => (asmCount n).map .rdout
  | .CLROUT, [] => some .clrout
  | .DEC, [n] => (asmCount n).map .dec
  | .DECEND, [] => some .decend
  | .POPSYM, [] => some .popsym
  | .DECRST, [] => some .decrst
  | _, _ => none

end Sys2Proof
end

