-- ==== Sys2Proof/Decode.lean ====
section
/-! DEFINITION. The decoder, total on 32-bit words (30_encoding.md R101 to R110), and the encoder (R112). -/

namespace Sys2Proof

/-- SYM = word[7:0] (R103). -/
def fieldSym (w : Word) : Sym := w.setWidth 8

/-- WIDX = word[10:8] (R103). -/
def fieldWidx (w : Word) : BitVec 3 := w.extractLsb' 8 3

/-- NODE = word[8:0] (R103). -/
def fieldNode (w : Word) : NodeIx := w.setWidth 9

/-- n = zext(word[4:0]) + 1 (R104). -/
def fieldCount (w : Word) : Nat := (w.setWidth 5).toNat + 1

/-- One row of the opcode map (R106): its match, its mask and the command its words stand for. -/
structure OpRow where
  pattern : Word
  mask : Word
  command : Word → Instr

/-- A word encodes a row when `(w AND mask) = match` (R106). -/
def OpRow.hits (r : OpRow) (w : Word) : Bool := w &&& r.mask == r.pattern

/-- The rows of control, frequency table and tree builder (R106, OP 0x00 to 0x07). -/
def rowsLow : List OpRow :=
  [ ⟨0x00000000#32, 0xFFFFFFFF#32, fun _ => .nop⟩,
    ⟨0x01000000#32, 0xFFFFFFFF#32, fun _ => .sreset⟩,
    ⟨0x02000000#32, 0xFFFFFFFF#32, fun _ => .clrfreq⟩,
    ⟨0x03000000#32, 0xFFFFFF00#32, fun w => .incfreq (fieldSym w)⟩,
    ⟨0x04000000#32, 0xFFFFFF00#32, fun w => .setfreq (fieldSym w)⟩,
    ⟨0x05000000#32, 0xFFFFFF00#32, fun w => .rdfreq (fieldSym w)⟩,
    ⟨0x06000000#32, 0xFFFFFFFF#32, fun _ => .build⟩,
    ⟨0x07000000#32, 0xFFFFFE00#32, fun w => .rdnode (fieldNode w)⟩ ]

/-- The rows of the code table (R106, OP 0x08 to 0x0D). -/
def rowsTable : List OpRow :=
  [ ⟨0x08000000#32, 0xFFFFFFFF#32, fun _ => .derive⟩,
    ⟨0x09000000#32, 0xFFFFFFFF#32, fun _ => .clrct⟩,
    ⟨0x0A000000#32, 0xFFFFFF00#32, fun w => .wrctl (fieldSym w)⟩,
    ⟨0x0B000000#32, 0xFFFFF800#32, fun w => .wrctw (fieldSym w) (fieldWidx w)⟩,
    ⟨0x0C000000#32, 0xFFFFFF00#32, fun w => .rdctl (fieldSym w)⟩,
    ⟨0x0D000000#32, 0xFFFFF800#32, fun w => .rdctw (fieldSym w) (fieldWidx w)⟩ ]

/-- The rows of the encoder and the decoder (R106, OP 0x0E to 0x14). -/
def rowsCodec : List OpRow :=
  [ ⟨0x0E000000#32, 0xFFFFFF00#32, fun w => .enc (fieldSym w)⟩,
    ⟨0x0F000000#32, 0xFFFFFFE0#32, fun w => .rdout (fieldCount w)⟩,
    ⟨0x10000000#32, 0xFFFFFFFF#32, fun _ => .clrout⟩,
    ⟨0x11000000#32, 0xFFFFFFE0#32, fun w => .dec (fieldCount w)⟩,
    ⟨0x12000000#32, 0xFFFFFFFF#32, fun _ => .decend⟩,
    ⟨0x13000000#32, 0xFFFFFFFF#32, fun _ => .popsym⟩,
    ⟨0x14000000#32, 0xFFFFFFFF#32, fun _ => .decrst⟩ ]

/-- The opcode map of R106. -/
def opRows : List OpRow := rowsLow ++ rowsTable ++ rowsCodec

/-- The decoding of R107: the row the word matches, with its fields, or `none` for Illegal. -/
def decode (w : Word) : Option Instr :=
  (opRows.find? fun r => r.hits w).map fun r => r.command w

/-- A word of format S: match OR s (R112). -/
def encodeS (pattern : Word) (s : Sym) : Word := pattern ||| s.setWidth 32

/-- A word of format SW: match OR s OR (w << 8) (R112). -/
def encodeSW (pattern : Word) (s : Sym) (w : BitVec 3) : Word :=
  pattern ||| s.setWidth 32 ||| (w.setWidth 32 <<< 8)

/-- A word of format NI: match OR i (R112). -/
def encodeNI (pattern : Word) (i : NodeIx) : Word := pattern ||| i.setWidth 32

/-- A word of format C: match OR (n - 1) (R104, R112). -/
def encodeC (pattern : Word) (n : Nat) : Word := pattern ||| (BitVec.ofNat 5 (n - 1)).setWidth 32

/-- The word of a command (R112), with the match of its row of R106. -/
def encode : Instr → Word
  | .nop => 0x00000000#32
  | .sreset => 0x01000000#32
  | .clrfreq => 0x02000000#32
  | .incfreq s => encodeS 0x03000000#32 s
  | .setfreq s => encodeS 0x04000000#32 s
  | .rdfreq s => encodeS 0x05000000#32 s
  | .build => 0x06000000#32
  | .rdnode i => encodeNI 0x07000000#32 i
  | .derive => 0x08000000#32
  | .clrct => 0x09000000#32
  | .wrctl s => encodeS 0x0A000000#32 s
  | .wrctw s w => encodeSW 0x0B000000#32 s w
  | .rdctl s => encodeS 0x0C000000#32 s
  | .rdctw s w => encodeSW 0x0D000000#32 s w
  | .enc s => encodeS 0x0E000000#32 s
  | .rdout n => encodeC 0x0F000000#32 n
  | .clrout => 0x10000000#32
  | .dec n => encodeC 0x11000000#32 n
  | .decend => 0x12000000#32
  | .popsym => 0x13000000#32
  | .decrst => 0x14000000#32

/-- The 32-bit command word whose low `nbits` bits are those of `w` and whose other bits are 0. Every command is one word,
written whole, so the table's bit numbers are the word's own (R100, R10). -/
def tableWord (nbits w : Nat) : Word := BitVec.ofNat 32 (w % 2 ^ nbits)

/-- The command the decoder reads from a word numbered as spec/opcode_table.json numbers its bits. -/
def decodeTableWord (nbits w : Nat) : Option Instr := decode (tableWord nbits w)

end Sys2Proof
end

