-- ==== Sys2Proof/Machine/State.lean ====
section
/-! DEFINITION. The state of the block (10_state.md R20), the reasons a step can stop, and the state after reset (R50). -/

namespace Sys2Proof.Machine

/-- One host access to the register window at byte offset `off` (20_memory.md R61, R62). `width` is the access's size in bytes;
a burst is an access wider than 4. `v` is the bus data of a write. -/
inductive Access where
  | read (off : BitVec 8) (width : Nat)
  | write (off : BitVec 8) (width : Nat) (v : Word)
  deriving DecidableEq, Repr

/-- Who moves next (00_scope.md R16; log 1): the host with one access, the engine, or the reset input being asserted
(70_reset_and_hazards.md R260). -/
inductive Turn where
  | host (a : Access)
  | engine
  | reset
  deriving DecidableEq, Repr

/-- The errors a command can raise (60_exceptions.md R230, codes 1 to 10). -/
inductive Error where
  | emptyInput
  | unknownSymbol
  | malformedStream
  | illegalCommand
  | countOverflow
  | valueRange
  | noTree
  | nodeRange
  | outqFull
  | symqFull
  deriving DecidableEq, Repr

/-- An internal memory indexed by a symbol (20_memory.md R77): the pairs of a symbol and its element, symbols strictly rising, no
pair whose element is the one an unlisted symbol reads as (log 9). -/
abbrev Memory (α : Type) := List (Sym × α)

/-- The state of the block: every element of R20, then the reset sequence's own bit (R260), then the model's own fields. -/
structure State where
  /-- DATA (R27) -/
  data : Word
  /-- CUR_CMD (R40) -/
  curCmd : Word
  /-- CUR_DATA (R40) -/
  curData : Word
  /-- BUSY (R30) -/
  busy : Bool
  /-- STATUS.ERR (R31) -/
  err : Bool
  /-- STATUS.ESTICKY (R32) -/
  esticky : Bool
  /-- STATUS.OVR (R33) -/
  ovr : Bool
  /-- STATUS.ECODE (R31) -/
  ecode : BitVec 4
  /-- RESULT0 (R35) -/
  result0 : Word
  /-- RESULT1 (R35) -/
  result1 : Word
  /-- FREQ[0..255] (R41); an unlisted count is 0 (R50) -/
  freq : Memory Count
  /-- NODE[0..NODE_COUNT-1] (R42); the entries above are left out, as R52 allows (log 4) -/
  node : List Node
  /-- TREE_VALID (R43) -/
  treeValid : Bool
  /-- NODE_COUNT (R43) -/
  nodeCount : BitVec 10
  /-- ROOT (R43) -/
  root : NodeIx
  /-- CT[0..255] (R44, R45); an unlisted entry is `emptyEntry` (R50) -/
  ct : Memory CtEntry
  /-- OUTQ, front first (R46) -/
  outq : Digits
  /-- ACC, first digit first (R47) -/
  acc : Digits
  /-- ACC_LEN (R47) -/
  accLen : BitVec 8
  /-- ACC_OVF (R47) -/
  accOvf : Bool
  /-- SYMQ, front first (R48) -/
  symq : List Sym
  /-- the reset sequence is running (R260; log 6) -/
  resetting : Bool
  /-- MODEL'S OWN: the turns still to come, the next first (log 1) -/
  turns : List Turn
  /-- MODEL'S OWN: the number of free draws taken so far (log 3) -/
  draws : Nat
  /-- MODEL'S OWN: the values host reads returned, newest first (R18; log 8) -/
  readBack : List Word
  deriving DecidableEq, Repr

/-- Why a step can stop with a fault. -/
inductive Fault where
  /-- Raised by a host access of the wrong width or alignment (R62, R238): the host gets a bus error and the block changes
  nothing. Safe: no host that keeps the access rules reaches it, and the hardware goes on where the model stops (log 7). -/
  | busError (off : BitVec 8) (width : Nat)
  deriving DecidableEq, Repr

/-- Why a step can be refused. -/
inductive Refusal where
  /-- Raised by exec's arm of a command that has no meaning yet; none is left. Safe: nothing is proved of such a command. -/
  | notModelled (mnemonic : String)
  deriving DecidableEq, Repr

/-- The state right after reset (R50), with the reset sequence ended and BUSY = 0 (R30, R260). -/
def State.reset : State where
  data := 0
  curCmd := 0
  curData := 0
  busy := false
  err := false
  esticky := false
  ovr := false
  ecode := 0
  result0 := 0
  result1 := 0
  freq := []
  node := []
  treeValid := false
  nodeCount := 0
  root := 0
  ct := []
  outq := []
  acc := []
  accLen := 0
  accOvf := false
  symq := []
  resetting := false
  turns := []
  draws := 0
  readBack := []

end Sys2Proof.Machine
end

