-- ==== Sys2Proof/Machine/Ops.lean ====
section
/-! DEFINITION. The named operations over the block's state: element reads and writes of the internal memories (20_memory.md R77),
digit packing (R45, R66), the completion of a command with and without an error (40_control.md R131, 60_exceptions.md R233), acceptance
(40_control.md R130) and reset (70_reset_and_hazards.md R260). -/

namespace Sys2Proof.Machine

/-- What one step answers. -/
abbrev Result := Host.Outcome State Fault Refusal

/-! ## Element reads and writes -/

/-- The element of the memory `m` at `x`; an unlisted element is `d`. -/
def Memory.get {α : Type} (d : α) : Memory α → Sym → α
  | [], _ => d
  | c :: m, x => if c.1 = x then c.2 else Memory.get d m x

/-- The pair of `x` and `v` put in front of the first pair of `m` with a greater symbol. -/
def Memory.insert {α : Type} (x : Sym) (v : α) : Memory α → Memory α
  | [] => [(x, v)]
  | c :: m => if x < c.1 then (x, v) :: c :: m else c :: Memory.insert x v m

/-- The memory `m` without an element at `x`. -/
def Memory.erase {α : Type} (m : Memory α) (x : Sym) : Memory α := m.filter fun c => c.1 != x

/-- `m[x] <- v`, in canonical form: an element equal to `d` is not listed. -/
def Memory.set {α : Type} [DecidableEq α] (d : α) (m : Memory α) (x : Sym) (v : α) : Memory α :=
  if v = d then m.erase x else (m.erase x).insert x v

/-- The canonical form: symbols strictly rising, no listed element equal to `d`. -/
abbrev Memory.wf {α : Type} (d : α) (m : Memory α) : Prop :=
  m.Pairwise (fun a b => a.1 < b.1) ∧ d ∉ m.map fun c => c.2

/-- `FREQ[x]` (R41): an unlisted count is 0. -/
def State.freqAt (s : State) (x : Sym) : Count := Memory.get 0 s.freq x

/-- `FREQ <- m`, the whole memory. -/
def State.setFreq (s : State) (m : Memory Count) : State := { s with freq := m }

/-- `FREQ[x] <- c`. -/
def State.setFreqAt (s : State) (x : Sym) (c : Count) : State := s.setFreq (Memory.set 0 s.freq x c)

/-- `NODE[i]` (R42). An entry that State leaves out reads as unspecified (R52; log 4). -/
def State.nodeAt (s : State) (i : NodeIx) : Node :=
  match s.node[i.toNat]? with
  | some n => n
  | none => Config.unspecifiedNode i.toNat

/-- NODE, TREE_VALID, NODE_COUNT and ROOT written together (R43). -/
def State.setTree (s : State) (ns : List Node) (valid : Bool) (count : BitVec 10) (root : NodeIx) : State :=
  { s with node := ns, treeValid := valid, nodeCount := count, root := root }

/-- A code-table entry with no code word and all word bits 0 (R44, R50). -/
def emptyEntry : CtEntry := { len := 0, words := Vector.replicate 8 0 }

/-- `CT[x]` (R44): an unlisted entry is empty. -/
def State.ctAt (s : State) (x : Sym) : CtEntry := Memory.get emptyEntry s.ct x

/-- `CT <- m`, the whole table. -/
def State.setCt (s : State) (m : Memory CtEntry) : State := { s with ct := m }

/-- `CT[x] <- e`. -/
def State.setCtAt (s : State) (x : Sym) (e : CtEntry) : State := s.setCt (Memory.set emptyEntry s.ct x e)

/-- `OUTQ <- q` (R46). -/
def State.setOutq (s : State) (q : Digits) : State := { s with outq := q }

/-- `ACC <- a; ACC_LEN <- l; ACC_OVF <- o` (R47). -/
def State.setAcc (s : State) (a : Digits) (l : BitVec 8) (o : Bool) : State :=
  { s with acc := a, accLen := l, accOvf := o }

/-- `SYMQ <- q` (R48). -/
def State.setSymq (s : State) (q : List Sym) : State := { s with symq := q }

/-- `RESULT0 <- r0; RESULT1 <- r1` (R35). -/
def State.setResults (s : State) (r0 r1 : Word) : State := { s with result0 := r0, result1 := r1 }

/-- `ESTICKY <- e` (R32). -/
def State.setSticky (s : State) (e : Bool) : State := { s with esticky := e }

/-! ## Digits in words -/

/-- Digit j of a word that carries stream digits: bit 31 - j (R66). -/
def wordDigit (w : Word) (j : Nat) : Bool := w.getLsbD (31 - j)

/-- The word whose bits 31 - j, 31 - (j + 1), ... are the digits given, every other bit 0. -/
def packFrom : Nat → Digits → Word
  | _, [] => 0
  | j, d :: ds => (if d then 0x80000000#32 >>> j else 0) ||| packFrom (j + 1) ds

/-- The word that carries the digits, the first in bit 31, unused bits 0 (R66, R191). -/
def packWord (ds : Digits) : Word := packFrom 0 ds

/-- `bit(s, j) = W[j div 32][31 - (j mod 32)]` of an entry (R45). -/
def entryDigit (e : CtEntry) (j : Nat) : Bool := wordDigit (e.words.toList.getD (j / 32) 0) (j % 32)

/-- The code word an entry holds: its first `len` digits (R44). -/
def entryCode (e : CtEntry) : Digits := (List.range e.len.toNat).map (entryDigit e)

/-- `code(x)` (R44). -/
def State.codeOf (s : State) (x : Sym) : Digits := entryCode (s.ctAt x)

/-- The entry that holds the code word `p`, word bits beyond it 0 (`put` of R170). -/
def entryOfCode (p : Digits) : CtEntry where
  len := BitVec.ofNat 8 p.length
  words := Vector.ofFn fun k : Fin 8 => packWord ((p.drop (32 * k.val)).take 32)

/-! ## Acceptance and completion -/

/-- Acceptance of `v` (R130): the command and its operand are latched, and BUSY goes to 1. -/
def State.accept (s : State) (v : Word) : State := { s with curCmd := v, curData := s.data, busy := true }

/-- The status of a command that raised no error (R131). -/
def State.finishOk (s : State) : State := { s with ecode := 0, err := false, busy := false }

/-- The code of an error (R230). -/
def Error.code : Error → BitVec 4
  | .emptyInput => 1
  | .unknownSymbol => 2
  | .malformedStream => 3
  | .illegalCommand => 4
  | .countOverflow => 5
  | .valueRange => 6
  | .noTree => 7
  | .nodeRange => 8
  | .outqFull => 9
  | .symqFull => 10

/-- The status of a command that raised `e`: its code, ERR, ESTICKY and BUSY, and nothing else (R131, R233). -/
def State.finishErr (s : State) (e : Error) : State :=
  { s with ecode := e.code, err := true, esticky := true, busy := false }

/-- `ok(writes)`: `s` is the state with the command's writes applied (R131). -/
def ok (s : State) : Result := .next s.finishOk

/-- `raise E`: the one way a command reports an error. The block has no trap: nothing is saved, no handler is entered, and
the command completes with its code instead of its effects (R12, R233, R239). There is no return beside it (R240). -/
def raise (e : Error) (s : State) : Result := .next (s.finishErr e)

/-! ## Reset -/

/-- The elements SRESET gives their reset values: all but DATA and OVR (R50, R133, R262); ECODE, ERR and BUSY are written at
completion. -/
def State.softReset (s : State) : State :=
  { s with
    curCmd := 0, curData := 0, freq := [], node := [], treeValid := false, nodeCount := 0, root := 0, ct := [], outq := [], acc := [],
    accLen := 0, accOvf := false, symq := [], result0 := 0, result1 := 0, esticky := false }

/-- The reset input is asserted: the reset sequence starts, and STATUS.BUSY reads 1 until it ends (R260; log 6). -/
def State.beginReset (s : State) : State := { s with busy := true, resetting := true }

/-- The end of the reset sequence: every element at its value of R50, BUSY = 0 (R260). The model's own fields stay. -/
def State.endReset (s : State) : State :=
  { State.reset with turns := s.turns, draws := s.draws, readBack := s.readBack }

/-! ## The model's own fields -/

/-- The turns still to come (log 1). -/
def State.setTurns (s : State) (ts : List Turn) : State := { s with turns := ts }

/-- A value returned to the host, and `k` free draws used up (log 3, log 8). -/
def State.answer (s : State) (v : Word) (k : Nat) : State :=
  { s with readBack := v :: s.readBack, draws := s.draws + k }

end Sys2Proof.Machine
end

