-- ==== Sys2Proof/Machine/Operands.lean ====
section
/-! DEFINITION. The DATA operands of commands (30_encoding.md R105), read from CUR_DATA, and the sources of results (20_memory.md R77). The
operands that stand in the command word are read by the decoder (R103, R104). -/

namespace Sys2Proof.Machine

/-- SETFREQ's operand: CUR_DATA[23:0] where CUR_DATA[31:24] = 0, none where it is not (R105, R142). -/
def State.dataCount (s : State) : Option Count :=
  if s.curData.extractLsb' 24 8 = 0 then some (s.curData.setWidth 24) else none

/-- WRCTL's operand: CUR_DATA[7:0] where CUR_DATA[31:8] = 0, none where it is not (R105, R176). -/
def State.dataLen (s : State) : Option (BitVec 8) :=
  if s.curData.extractLsb' 8 24 = 0 then some (s.curData.setWidth 8) else none

/-- WRCTW's operand: all 32 bits of CUR_DATA (R105, R177). -/
def State.dataWord (s : State) : Word := s.curData

/-- DEC's operand: the digits CUR_DATA[31], ..., CUR_DATA[32 - n], in that order (R105, R210). -/
def State.dataDigits (s : State) (n : Nat) : Digits := (List.range n).map (wordDigit s.curData)

/-- `CT[x].W[w]` (R45, R77). -/
def State.ctWord (s : State) (x : Sym) (w : BitVec 3) : Word := (s.ctAt x).words[w.toNat]'w.isLt

end Sys2Proof.Machine
end

