-- ==== Sys2Proof/Machine/CodeTable.lean ====
section
/-! DEFINITION. The code table: DERIVE, CLRCT, WRCTL, WRCTW, RDCTL and RDCTW (43_codetable.md). -/

namespace Sys2Proof.Machine

/-- The depth-first walk of R170 from node `i` with the digits `p` gathered so far: each leaf's symbol with its path, 0 for a
step to the left child and 1 for a step to the right. The first argument bounds the depth; no tree of BUILD is deeper
than NODE_MAX (R156 (f); log 5). -/
def State.walk (s : State) : Nat → NodeIx → Digits → List (Sym × Digits)
  | 0, _, _ => []
  | fuel + 1, i, p =>
    match s.nodeAt i with
    | .leaf sym _ => [(sym, p)]
    | .internal _ l r => s.walk fuel l (p ++ [false]) ++ s.walk fuel r (p ++ [true])

/-- The code words of the tree: the paths of the walk, or the digit 0 for a lone leaf (R170, R171). -/
def State.codeWords (s : State) : List (Sym × Digits) :=
  match s.nodeAt s.root with
  | .leaf sym _ => [(sym, [false])]
  | .internal _ _ _ => s.walk Config.nodeMax s.root []

/-- The table that holds the code words given and nothing else: `put` on a cleared table (R170). -/
def tableOf (cs : List (Sym × Digits)) : Memory CtEntry :=
  cs.foldl (fun m c => Memory.set emptyEntry m c.1 (entryOfCode c.2)) []

/-- DERIVE (R170). -/
def execDerive (s : State) : Result :=
  if s.treeValid = false then raise .noTree s
  else ok (s.setCt (tableOf s.codeWords))

/-- CLRCT (R175). -/
def execClrct (s : State) : Result := ok (s.setCt [])

/-- WRCTL x (R176). -/
def execWrctl (x : Sym) (s : State) : Result :=
  match s.dataLen with
  | none => raise .valueRange s
  | some l => ok (s.setCtAt x { s.ctAt x with len := l })

/-- WRCTW x, w (R177). -/
def execWrctw (x : Sym) (w : BitVec 3) (s : State) : Result :=
  ok (s.setCtAt x { s.ctAt x with words := (s.ctAt x).words.set w.toNat s.dataWord w.isLt })

/-- RDCTL x (R178). -/
def execRdctl (x : Sym) (s : State) : Result := ok (s.setResults ((s.ctAt x).len.setWidth 32) 0)

/-- RDCTW x, w (R179). -/
def execRdctw (x : Sym) (w : BitVec 3) (s : State) : Result := ok (s.setResults (s.ctWord x w) 0)

end Sys2Proof.Machine
end

