-- ==== Sys2Proof/Machine/Control.lean ====
section
/-! DEFINITION. The control commands NOP and SRESET (40_control.md). -/

namespace Sys2Proof.Machine

/-- NOP (R132). -/
def execNop (s : State) : Result := ok s

/-- SRESET (R133, R262). -/
def execSreset (s : State) : Result := ok s.softReset

end Sys2Proof.Machine
end

