-- ==== Sys2Proof/Machine/Flags.lean ====
section
/-! DEFINITION. The status register, its flags and the status views (10_state.md R29, R34, R36, R37). -/

namespace Sys2Proof.Machine

/-- STATUS.ACC_NE: the accumulator is not empty, ACC_LEN != 0 or ACC_OVF = 1 (R29, R34). -/
def State.accNe (s : State) : Bool := s.accLen != 0 || s.accOvf

/-- STATUS bits 10:8, the views ACC_OVF, ACC_NE and TREE_VALID (R34). -/
def State.statusViews (s : State) : BitVec 3 :=
  BitVec.ofBool s.accOvf ++ BitVec.ofBool s.accNe ++ BitVec.ofBool s.treeValid

/-- STATUS with `views` in bits 10:8 (R29, R63). -/
def State.statusWith (s : State) (views : BitVec 3) : Word :=
  0#21 ++ views ++ s.ecode ++ BitVec.ofBool s.ovr ++ BitVec.ofBool s.esticky ++ BitVec.ofBool s.err ++
    BitVec.ofBool s.busy

/-- STATUS as it reads while BUSY = 0 (R29, R63). -/
def State.status (s : State) : Word := s.statusWith s.statusViews

/-- LEVELS = {ACC_LEN, 2'b0, |SYMQ|[5:0], 5'b0, |OUTQ|[10:0]} (R36, R63). -/
def State.levels (s : State) : Word :=
  s.accLen ++ 0#2 ++ BitVec.ofNat 6 s.symq.length ++ 0#5 ++ BitVec.ofNat 11 s.outq.length

/-- TREE = {7'b0, ROOT, 6'b0, NODE_COUNT} (R37, R63). -/
def State.tree (s : State) : Word := 0#7 ++ s.root ++ 0#6 ++ s.nodeCount

/-- A host write of `v` to STATUS: v[2] = 1 clears ESTICKY, v[3] = 1 clears OVR, and every other bit of v is ignored
(R29, R32, R33, R64). -/
def State.writeStatus (s : State) (v : Word) : State :=
  { s with esticky := s.esticky && !v.getLsbD 2, ovr := s.ovr && !v.getLsbD 3 }

/-- STATUS.OVR is set: a CMD write was dropped (R33). -/
def State.setOvr (s : State) : State := { s with ovr := true }

/-- DATA <- v, a host write (R27, R64). -/
def State.setData (s : State) (v : Word) : State := { s with data := v }

end Sys2Proof.Machine
end

