-- ==== Sys2Proof/Machine/Decoder.lean ====
section
/-! DEFINITION. The bitstream decoder: DEC, DECEND, POPSYM and DECRST (45_decoder.md). -/

namespace Sys2Proof.Machine

/-- The entry `e` matches the accumulator: `len = ACC_LEN and code = ACC` (R211). -/
def State.matchesAcc (s : State) (e : CtEntry) : Bool := e.len == s.accLen && entryCode e == s.acc

/-- `min M`: the lowest symbol whose entry matches the accumulator, none if no symbol's does (R211). CT lists its entries
with symbols rising (log 9), and an unlisted entry has len 0, which no accumulator with a digit in it matches. -/
def State.matched (s : State) : Option Sym := (s.ct.find? fun c => s.matchesAcc c.2).map fun c => c.1

/-- The accumulator with one digit more (R211). -/
def State.pushDigit (s : State) (d : Bool) : State := s.setAcc (s.acc ++ [d]) (s.accLen + 1) s.accOvf

/-- `digit(d)` (R211, R212). -/
def State.digit (s : State) (d : Bool) : State :=
  if s.accOvf then s
  else if s.accLen.toNat = Config.maxLen then s.setAcc s.acc s.accLen true
  else
    match (s.pushDigit d).matched with
    | none => s.pushDigit d
    | some x => ((s.pushDigit d).setSymq (s.symq ++ [x])).setAcc [] 0 s.accOvf

/-- The digits fed to the decoder one after the other (R210). -/
def State.digits (s : State) (ds : Digits) : State := ds.foldl State.digit s

/-- DEC n (R210); the room in SYMQ is checked before any digit is consumed (R216). -/
def execDec (n : Nat) (s : State) : Result :=
  if Config.symqDepth - s.symq.length < n then raise .symqFull s
  else ok (s.digits (s.dataDigits n))

/-- DECEND (R213). -/
def execDecend (s : State) : Result :=
  if s.accNe then raise .malformedStream s else ok s

/-- RESULT0 of a POPSYM that found the symbol `x`: VALID in bit 8, SYM in bits 7:0 (R214). -/
def poppedWord (x : Sym) : Word := 0#23 ++ 1#1 ++ x

/-- POPSYM (R214). -/
def execPopsym (s : State) : Result :=
  match s.symq with
  | [] => ok (s.setResults 0 0)
  | x :: q => ok ((s.setSymq q).setResults (poppedWord x) (BitVec.ofNat 32 q.length))

/-- DECRST (R215). -/
def execDecrst (s : State) : Result := ok ((s.setAcc [] 0 false).setSymq [])

end Sys2Proof.Machine
end

