-- ==== Sys2Proof/Machine/Encoder.lean ====
section
/-! DEFINITION. The bitstream encoder: ENC, RDOUT and CLROUT (44_encoder.md). -/

namespace Sys2Proof.Machine

/-- ENC x (R190); UNKNOWN_SYMBOL is checked before OUTQ_FULL (R236). -/
def execEnc (x : Sym) (s : State) : Result :=
  if (s.ctAt x).len = 0 then raise .unknownSymbol s
  else if Config.outqBits - s.outq.length < (s.ctAt x).len.toNat then raise .outqFull s
  else ok (s.setOutq (s.outq ++ s.codeOf x))

/-- RDOUT n (R191): the bits removed stand in RESULT0 from bit 31 down, their number in RESULT1. -/
def execRdout (n : Nat) (s : State) : Result :=
  ok ((s.setOutq (s.outq.drop n)).setResults (packWord (s.outq.take n)) (BitVec.ofNat 32 (min n s.outq.length)))

/-- CLROUT (R192). -/
def execClrout (s : State) : Result := ok (s.setOutq [])

end Sys2Proof.Machine
end

