-- ==== Sys2Proof/Machine/Freq.lean ====
section
/-! DEFINITION. The frequency table commands CLRFREQ, INCFREQ, SETFREQ and RDFREQ (41_freq.md). -/

namespace Sys2Proof.Machine

/-- CLRFREQ (R140). -/
def execClrfreq (s : State) : Result := ok (s.setFreq [])

/-- INCFREQ x (R141). -/
def execIncfreq (x : Sym) (s : State) : Result :=
  if s.freqAt x = Config.freqMax then raise .countOverflow s
  else ok (s.setFreqAt x (s.freqAt x + 1))

/-- SETFREQ x (R142). -/
def execSetfreq (x : Sym) (s : State) : Result :=
  match s.dataCount with
  | none => raise .valueRange s
  | some c => ok (s.setFreqAt x c)

/-- RDFREQ x (R143). -/
def execRdfreq (x : Sym) (s : State) : Result := ok (s.setResults ((s.freqAt x).setWidth 32) 0)

end Sys2Proof.Machine
end

