-- ==== Sys2Proof/Machine/Tree.lean ====
section
/-! DEFINITION. The tree builder: BUILD, the priority-queue merger, and RDNODE (42_tree.md). -/

namespace Sys2Proof.Machine

/-! ## The priority queue -/

/-- A key of the priority queue: a node's weight and its index, which is its insertion sequence number (R151, R152). -/
abbrev Key := Weight × NodeIx

/-- Keys compared lexicographically as unsigned numbers (R152, R155). -/
def keyLt (a b : Key) : Bool := decide (a.1 < b.1) || (a.1 == b.1 && decide (a.2 < b.2))

/-- The least of `k` and the keys `q`: `argmin_key` (R12, R150). -/
def leastKey : Key → List Key → Key
  | k, [] => k
  | k, x :: q => leastKey (if keyLt x k then x else k) q

/-- One extraction: the node with the least key and the queue without it, none from an empty queue (R150, R152). -/
def popMin : List Key → Option (Key × List Key)
  | [] => none
  | k :: q => some (leastKey k q, (k :: q).erase (leastKey k q))

/-! ## BUILD -/

/-- The leaves, one per present symbol, in ascending symbol order (R150, R151): FREQ lists the symbols with a count other
than 0, in rising order (log 9). -/
def State.leaves (s : State) : List Node := s.freq.map fun c => .leaf c.1 (c.2.setWidth 32)

/-- The queue that holds every node of `ns` under its index (R150, R151). -/
def keysOf (ns : List Node) : List Key := ns.zipIdx.map fun p => (p.1.weight, BitVec.ofNat 9 p.2)

/-- The merge loop of R150: while two nodes are queued, the first popped becomes the left child and the second the right
child of a new node with the next free index (R151, R153). The first argument bounds the merges left; n leaves need n - 1. -/
def mergeLoop : Nat → List Node → List Key → List Node × List Key
  | 0, ns, q => (ns, q)
  | fuel + 1, ns, q =>
    match popMin q with
    | none => (ns, q)
    | some (a, q₁) =>
      match popMin q₁ with
      | none => (ns, q)
      | some (b, q₂) =>
        let k : Key := (a.1 + b.1, BitVec.ofNat 9 ns.length)
        mergeLoop fuel (ns ++ [.internal k.1 a.2 b.2]) (q₂ ++ [k])

/-- The nodes of the tree over the leaves `ls` and the queue that is left (R150). -/
def buildTree (ls : List Node) : List Node × List Key := mergeLoop ls.length ls (keysOf ls)

/-- The index of the only node left in the queue (R150). An empty queue does not arise (log 18). -/
def rootOf : List Key → NodeIx
  | [] => 0
  | k :: _ => k.2

/-- NODE, TREE_VALID, NODE_COUNT and ROOT as BUILD writes them for the leaves `ls` (R150). -/
def State.installTree (s : State) (ls : List Node) : State :=
  let t := buildTree ls
  s.setTree t.1 true (BitVec.ofNat 10 t.1.length) (rootOf t.2)

/-- BUILD (R150). -/
def execBuild (s : State) : Result :=
  match s.leaves with
  | [] => raise .emptyInput s
  | l :: ls => ok (s.installTree (l :: ls))

/-! ## RDNODE -/

/-- RESULT1 of RDNODE: {LEAF, ISROOT, ...} with the symbol of a leaf or the children of an internal node (R158). -/
def nodeInfo (isroot : Bool) : Node → Word
  | .leaf sym _ => 1#1 ++ BitVec.ofBool isroot ++ 0#22 ++ sym
  | .internal _ l r => 0#1 ++ BitVec.ofBool isroot ++ 0#5 ++ r ++ 0#7 ++ l

/-- RDNODE i (R158); NO_TREE is checked before NODE_RANGE (R236). -/
def execRdnode (i : NodeIx) (s : State) : Result :=
  if s.treeValid = false then raise .noTree s
  else if s.nodeCount.toNat ≤ i.toNat then raise .nodeRange s
  else ok (s.setResults (s.nodeAt i).weight (nodeInfo (i == s.root) (s.nodeAt i)))

end Sys2Proof.Machine
end

