-- ==== Sys2Proof/Machine/Dispatch.lean ====
section
/-! DEFINITION. The dispatch of a decoded command to its meaning (40_control.md R131), one arm per constructor of Instr. -/

namespace Sys2Proof.Machine

/-- The completion of the command `i` from the state `s`: its own `exec` and the status it writes (R131). -/
def exec (i : Instr) (s : State) : Host.Outcome State Fault Refusal :=
  match i with
  -- control
  | .nop => Sys2Proof.Machine.execNop s
  | .sreset => Sys2Proof.Machine.execSreset s
  -- frequency table
  | .clrfreq => Sys2Proof.Machine.execClrfreq s
  | .incfreq x => Sys2Proof.Machine.execIncfreq x s
  | .setfreq x => Sys2Proof.Machine.execSetfreq x s
  | .rdfreq x => Sys2Proof.Machine.execRdfreq x s
  -- tree builder
  | .build => Sys2Proof.Machine.execBuild s
  | .rdnode k => Sys2Proof.Machine.execRdnode k s
  -- code table
  | .derive => Sys2Proof.Machine.execDerive s
  | .clrct => Sys2Proof.Machine.execClrct s
  | .wrctl x => Sys2Proof.Machine.execWrctl x s
  | .wrctw x w => Sys2Proof.Machine.execWrctw x w s
  | .rdctl x => Sys2Proof.Machine.execRdctl x s
  | .rdctw x w => Sys2Proof.Machine.execRdctw x w s
  -- encoder
  | .enc x => Sys2Proof.Machine.execEnc x s
  | .rdout n => Sys2Proof.Machine.execRdout n s
  | .clrout => Sys2Proof.Machine.execClrout s
  -- decoder
  | .dec n => Sys2Proof.Machine.execDec n s
  | .decend => Sys2Proof.Machine.execDecend s
  | .popsym => Sys2Proof.Machine.execPopsym s
  | .decrst => Sys2Proof.Machine.execDecrst s

end Sys2Proof.Machine
end

