-- ==== Sys2Proof/Machine/HostPort.lean ====
section
/-! DEFINITION. The host's side: the register window (10_state.md R23, 20_memory.md R60 to R64), the address map, and the host-level
operations of 30_encoding.md R113 and R114 as lists of turns. -/

namespace Sys2Proof.Machine

/-- The registers of the window (R23). -/
inductive Reg where
  | id | param | param2 | data | cmd | status | result0 | result1 | levels | tree | reserved
  deriving DecidableEq, Repr

/-- The register at a word-aligned offset (R23); 0x0C and 0x2C..0xFC are reserved (R38). -/
def regAt (off : BitVec 8) : Reg :=
  if off = 0x00 then .id
  else if off = 0x04 then .param
  else if off = 0x08 then .param2
  else if off = 0x10 then .data
  else if off = 0x14 then .cmd
  else if off = 0x18 then .status
  else if off = 0x1C then .result0
  else if off = 0x20 then .result1
  else if off = 0x24 then .levels
  else if off = 0x28 then .tree
  else .reserved

/-- A register's offset (R23); `reserved` stands for offset 0x0C. -/
def Reg.offset : Reg → BitVec 8
  | .id => 0x00
  | .param => 0x04
  | .param2 => 0x08
  | .reserved => 0x0C
  | .data => 0x10
  | .cmd => 0x14
  | .status => 0x18
  | .result0 => 0x1C
  | .result1 => 0x20
  | .levels => 0x24
  | .tree => 0x28

/-- The window offset that the host byte address `addr` selects when the window lies at `base`, none outside the window
(R61). HUFB_BASE is an open parameter, so it is an argument (log 10). -/
def windowOffset (base addr : Nat) : Option (BitVec 8) :=
  if base ≤ addr ∧ addr < base + Config.winBytes then some (BitVec.ofNat 8 (addr - base)) else none

/-! ## Reads -/

/-- The free draw a read takes now (R39; log 3). -/
def State.drawNow (s : State) : Word := Config.draw s.draws

/-- The registers whose value, whole or in part, is a draw while BUSY = 1: the starred ones of R63. -/
def Reg.starred : Reg → Bool
  | .status => true
  | .result0 => true
  | .result1 => true
  | .levels => true
  | .tree => true
  | _ => false

/-- The value of a whole starred register: a draw while BUSY = 1 (R39). -/
def State.starred (s : State) (v : Word) : Word := if s.busy then s.drawNow else v

/-- STATUS bits 10:8 as a read returns them: a draw while BUSY = 1 (R34, R39). -/
def State.readViews (s : State) : BitVec 3 := if s.busy then s.drawNow.extractLsb' 8 3 else s.statusViews

/-- The value a 32-bit aligned read of a register returns (HostRead, R63). -/
def State.readReg (s : State) : Reg → Word
  | .id => Config.idValue
  | .param => Config.paramValue
  | .param2 => Config.param2Value
  | .data => s.data
  | .cmd => 0
  | .status => s.statusWith s.readViews
  | .result0 => s.starred s.result0
  | .result1 => s.starred s.result1
  | .levels => s.starred s.levels
  | .tree => s.starred s.tree
  | .reserved => 0

/-- The number of draws a read of a register uses up. -/
def State.drawsOf (s : State) (r : Reg) : Nat := if s.busy && r.starred then 1 else 0

/-- HostRead: the value goes to the host and the block does not change (R63, R68). -/
def State.hostRead (s : State) (off : BitVec 8) : State :=
  s.answer (s.readReg (regAt off)) (s.drawsOf (regAt off))

/-! ## Writes -/

/-- A host write to CMD: accepted when BUSY = 0, else dropped with OVR set (R28, R33, R130). -/
def State.writeCmd (s : State) (v : Word) : State := if s.busy then s.setOvr else s.accept v

/-- HostWrite (R64): writes to read-only and reserved registers are ignored (R23, R38). -/
def State.hostWrite (s : State) (off : BitVec 8) (v : Word) : State :=
  match regAt off with
  | .data => s.setData v
  | .cmd => s.writeCmd v
  | .status => s.writeStatus v
  | .id => s
  | .param => s
  | .param2 => s
  | .result0 => s
  | .result1 => s
  | .levels => s
  | .tree => s
  | .reserved => s

/-! ## One access -/

/-- The block answers an access: 32 bits wide at an offset that is a multiple of 4 (R62). -/
def answered (off : BitVec 8) (width : Nat) : Bool := width == 4 && off.toNat % 4 == 0

/-- MemRead and MemWrite (R62): an access of another width or alignment is a bus error and changes nothing (R238; log 7). -/
def State.hostAccess (s : State) : Access → Result
  | .read off width => if answered off width then .next (s.hostRead off) else .fault (.busError off width)
  | .write off width v => if answered off width then .next (s.hostWrite off v) else .fault (.busError off width)

/-! ## Host-level operations of programs -/

/-- `wr REG, v` (R113). -/
def wr (r : Reg) (v : Word) : Turn := .host (.write r.offset 4 v)

/-- `rd REG` (R113). -/
def rd (r : Reg) : Turn := .host (.read r.offset 4)

/-- `wait` (R113): STATUS polled until BUSY reads 0. The engine's turn comes after `k` polls; the poll after it is the last. -/
def waitTurns (k : Nat) : List Turn := List.replicate k (rd .status) ++ [.engine, rd .status]

/-- `cmd X` (R114): wait, then write the command. -/
def cmdTurns (k : Nat) (i : Instr) : List Turn := waitTurns k ++ [wr .cmd (encode i)]

/-- A pseudo-instruction with a DATA operand (R114): write DATA, then `cmd X`. -/
def cmdDataTurns (k : Nat) (v : Word) (i : Instr) : List Turn := wr .data v :: cmdTurns k i

/-- `get X` (R114): the command, a wait, and the two result registers read back. -/
def getTurns (k j : Nat) (i : Instr) : List Turn := cmdTurns k i ++ waitTurns j ++ [rd .result0, rd .result1]

/-- `check` (R114): a wait and a read of STATUS. -/
def checkTurns (k : Nat) : List Turn := waitTurns k ++ [rd .status]

/-- A host access in the same cycle as a completion: the access is ordered first (R32, R237; log 12). -/
def sameCycle (a : Access) : List Turn := [.host a, .engine]

end Sys2Proof.Machine
end

