-- ==== Sys2Proof/Machine/Engine.lean ====
section
/-! DEFINITION. The engine's completion step (40_control.md R131), whose turn it is, and how a command word comes to be the next to run. -/

namespace Sys2Proof.Machine

/-- `complete()` (R131): the latched word is decoded and its command executed; an illegal word raises ILLEGAL_COMMAND and
changes nothing else (R110, R235). -/
def complete (s : State) : Result :=
  match decode s.curCmd with
  | none => raise .illegalCommand s
  | some i => exec i s

/-- The engine's turn: the end of the reset sequence if it is running (R260), else a completion if BUSY = 1, else nothing
(R131, R248). -/
def engineTurn (s : State) : Result :=
  if s.resetting then .next s.endReset
  else if s.busy then complete s
  else .next s

/-- One turn (R16). -/
def serve (t : Turn) (s : State) : Result :=
  match t with
  | .host a => s.hostAccess a
  | .engine => engineTurn s
  | .reset => .next s.beginReset

/-- One step: the next turn of the list; past its end the engine, which is never delayed forever (R131, R248; log 1). -/
def advance (s : State) : Result :=
  match s.turns with
  | [] => engineTurn s
  | t :: ts => serve t (s.setTurns ts)

/-- The state in which the command word `v` has just been accepted (R130) and the engine moves next (log 2). -/
def State.withCommand (s : State) (v : Word) : State :=
  { s.accept v with resetting := false, turns := .engine :: s.turns }

end Sys2Proof.Machine
end

