-- ==== Sys2Proof/Machine/Step.lean ====
section
/-! DEFINITION. One step of the block, and the word the next step runs. -/

namespace Sys2Proof.Machine

/-- One step of the block: one turn of the host, the engine or the reset input (00_scope.md R16). -/
def step (s : State) : Host.Outcome State Fault Refusal := advance s

/-- `s` with the command word `w` accepted, so that the next step completes exactly that command. The block fetches nothing:
a host's write to CMD gives it each command (10_state.md R22, 40_control.md R130), and this stands for that write (log 2). -/
def State.withFetchWord (s : State) (nbits w : Nat) : State := s.withCommand (tableWord nbits w)

end Sys2Proof.Machine
end

