-- ==== Sys2Proof/Safety.lean ====
section
/-! DEFINITION. The terms claims use: the invariants of the block's state, the shape of a tree, what a command keeps, and a run in
which no error is hidden (60_exceptions.md R249). -/

namespace Sys2Proof.Machine

/-! ## Parts of the state -/

/-- The parts of the state that the spec's rules speak of one by one: the internal memories, the results, the latches, and what belongs to
the host and to the model's own bookkeeping. The status flags are apart. -/
inductive Part where
  | freq | tree | ct | outq | acc | symq | results | latches | host
  deriving DecidableEq, Repr

/-- A part holds the same in both states. `latches` is CUR_CMD and CUR_DATA, `host` is DATA, OVR, the reset
sequence and the model's own fields. -/
def Part.Same (s t : State) : Part → Prop
  | .freq => t.freq = s.freq
  | .tree => t.node = s.node ∧ t.treeValid = s.treeValid ∧ t.nodeCount = s.nodeCount ∧ t.root = s.root
  | .ct => t.ct = s.ct
  | .outq => t.outq = s.outq
  | .acc => t.acc = s.acc ∧ t.accLen = s.accLen ∧ t.accOvf = s.accOvf
  | .symq => t.symq = s.symq
  | .results => t.result0 = s.result0 ∧ t.result1 = s.result1
  | .latches => t.curCmd = s.curCmd ∧ t.curData = s.curData
  | .host => t.data = s.data ∧ t.ovr = s.ovr ∧
      t.resetting = s.resetting ∧ t.turns = s.turns ∧ t.draws = s.draws ∧ t.readBack = s.readBack

/-- Every part but those named holds the same in both states. -/
def KeptBut (ps : List Part) (s t : State) : Prop := ∀ p, p ∉ ps → p.Same s t

/-- The status of a command that completed without an error (R131). -/
def Succeeded (s t : State) : Prop := t.ecode = 0 ∧ t.err = false ∧ t.busy = false ∧ t.esticky = s.esticky

/-- `s` after a command that raised the error with code `c`: ECODE, ERR, ESTICKY and BUSY, and nothing else (R233). -/
def failedWith (c : BitVec 4) (s : State) : State := { s with ecode := c, err := true, esticky := true, busy := false }

/-- The parts the rules let a command write: FREQ (R41), NODE and the descriptor (R43), CT (R44), OUTQ (R46), ACC (R47),
SYMQ (R48), the results (R35, and R133 for SRESET), and the latches for SRESET (R50, R262). No command writes the host's part (R27, R33). -/
def mayWrite : Instr → List Part
  | .nop => []
  | .sreset => [.freq, .tree, .ct, .outq, .acc, .symq, .results, .latches]
  | .clrfreq => [.freq]
  | .incfreq _ => [.freq]
  | .setfreq _ => [.freq]
  | .rdfreq _ => [.results]
  | .build => [.tree]
  | .rdnode _ => [.results]
  | .derive => [.ct]
  | .clrct => [.ct]
  | .wrctl _ => [.ct]
  | .wrctw _ _ => [.ct]
  | .rdctl _ => [.results]
  | .rdctw _ _ => [.results]
  | .enc _ => [.outq]
  | .rdout _ => [.outq, .results]
  | .clrout => [.outq]
  | .dec _ => [.acc, .symq]
  | .decend => []
  | .popsym => [.symq, .results]
  | .decrst => [.acc, .symq]

/-- The error codes a command can raise (R230, R232). -/
def errorsOf : Instr → List (BitVec 4)
  | .nop => []
  | .sreset => []
  | .clrfreq => []
  | .incfreq _ => [5]
  | .setfreq _ => [6]
  | .rdfreq _ => []
  | .build => [1]
  | .rdnode _ => [7, 8]
  | .derive => [7]
  | .clrct => []
  | .wrctl _ => [6]
  | .wrctw _ _ => []
  | .rdctl _ => []
  | .rdctw _ _ => []
  | .enc _ => [2, 9]
  | .rdout _ => []
  | .clrout => []
  | .dec _ => [10]
  | .decend => [3]
  | .popsym => []
  | .decrst => []

/-! ## Symbols -/

/-- Every symbol value, ascending. -/
def allSyms : List Sym := (List.range 256).map (BitVec.ofNat 8)

/-- The symbols with an entry in FREQ, ascending: `S` of R150. -/
def State.present (s : State) : List Sym := allSyms.filter fun x => s.freqAt x != 0

/-! ## Invariants -/

/-- ERR = (ECODE != 0) and no reserved code is held (R31, R230). -/
abbrev State.StatusOk (s : State) : Prop := s.err = (s.ecode != 0) ∧ s.ecode.toNat ≤ 10

/-- FREQ and CT are in canonical form (log 9). -/
abbrev State.MemoriesOk (s : State) : Prop := Memory.wf 0 s.freq ∧ Memory.wf emptyEntry s.ct

/-- The queues hold no more than their capacity (R46, R48). -/
abbrev State.QueuesOk (s : State) : Prop := s.outq.length ≤ 1024 ∧ s.symq.length ≤ 32

/-- ACC_LEN is the length of ACC, and ACC_OVF is set only over a full accumulator (R47, R212). -/
abbrev State.AccOk (s : State) : Prop := s.acc.length = s.accLen.toNat ∧ (s.accOvf = true → s.accLen = 255)

/-- The tree descriptor of R43: no nodes without a tree; with one, NODE_COUNT = 2n - 1 nodes for n from 1 to 256, ROOT the
last. -/
abbrev State.DescriptorOk (s : State) : Prop :=
  (s.treeValid = false → s.node = [] ∧ s.nodeCount = 0 ∧ s.root = 0) ∧
  (s.treeValid = true → s.node.length = s.nodeCount.toNat ∧ s.nodeCount.toNat = s.root.toNat + 1 ∧
    s.nodeCount.toNat % 2 = 1 ∧ s.nodeCount.toNat ≤ 511)

/-- The reset sequence runs only with BUSY = 1 (R260). -/
abbrev State.ResetOk (s : State) : Prop := s.resetting = true → s.busy = true

/-- The invariant of the block's state. -/
abbrev State.Inv (s : State) : Prop :=
  s.StatusOk ∧ s.MemoriesOk ∧ s.QueuesOk ∧ s.AccOk ∧ s.DescriptorOk ∧ s.ResetOk

/-! ## Trees -/

/-- `wt(NODE[i])` (R150). -/
def State.weightAt (s : State) (i : NodeIx) : Weight := (s.nodeAt i).weight

/-- The key of node i in the priority queue (R152). -/
def State.keyAt (s : State) (i : NodeIx) : Key := (s.weightAt i, i)

/-- The number n of leaves of a tree of NODE_COUNT = 2n - 1 nodes (R43). -/
def State.leafCount (s : State) : Nat := (s.nodeCount.toNat + 1) / 2

/-- Node `nd` at index j of a tree with n leaves: the first n are leaves, the others internal, with children of smaller
index, the left child's key below the right child's, and the children's weights summed without a carry
(R151, R153, R155, R156 (a), (d)). -/
def State.nodeOk (s : State) (n : Nat) (nd : Node) (j : Nat) : Bool :=
  match nd with
  | .leaf _ _ => decide (j < n)
  | .internal w l r => decide (n ≤ j) && decide (l.toNat < j) && decide (r.toNat < j) &&
      keyLt (s.keyAt l) (s.keyAt r) && w.toNat == (s.weightAt l).toNat + (s.weightAt r).toNat

/-- The symbol of a leaf. -/
def nodeSymbol : Node → Option Sym
  | .leaf x _ => some x
  | .internal _ _ _ => none

/-- The children named by the nodes, as indices. -/
def childIndices (ns : List Node) : List NodeIx := ns.flatMap Node.children

/-- The tree invariants of R151, R153, R155 and R156 (a) to (d): node by node, leaves in rising symbol order, and every node but
the root the child of exactly one node, the root of none. -/
abbrev State.TreeShape (s : State) : Prop :=
  (∀ p ∈ s.node.zipIdx, s.nodeOk s.leafCount p.1 p.2 = true) ∧
  (s.node.filterMap nodeSymbol).Pairwise (fun x y => x < y) ∧
  (∀ j < s.root.toNat, (childIndices s.node).count (BitVec.ofNat 9 j) = 1) ∧
  s.root ∉ childIndices s.node

/-- A valid tree has the shape of a tree. -/
abbrev State.TreeInv (s : State) : Prop := s.treeValid = true → s.TreeShape

/-- The symbol of the leaf that the digits `p` lead to from node i, 0 to the left child and 1 to the right (R170); none where
they do not end at a leaf. -/
def State.follow (s : State) (i : NodeIx) : Digits → Option Sym
  | [] => nodeSymbol (s.nodeAt i)
  | d :: p =>
    match s.nodeAt i with
    | .leaf _ _ => none
    | .internal _ l r => s.follow (if d then r else l) p

/-! ## Runs -/

/-- `k` steps from `s` end in `t`. -/
def Reaches (k : Nat) (s t : State) : Prop := Host.Core.run Sys2Proof.core k s = .next t

/-- The commands run one after the other from `s`, where none raises an error; none where one does. -/
def runAll : List Instr → State → Option State
  | [], s => some s
  | i :: is, s =>
    match exec i s with
    | .next t => if t.ecode = 0 then runAll is t else none
    | .fault _ => none
    | .refused _ => none

/-- What a host does with the encoder: encode a symbol or read up to n bits (R193). -/
inductive EncOp where
  | enc (x : Sym)
  | rdout (n : Nat)
  deriving DecidableEq, Repr

/-- The encoder run by a host, with the bits it has read, the first RESULT1 bits of each RESULT0 (R191, R193); none where a
command raises an error. -/
def runEnc : List EncOp → State → Option (State × Digits)
  | [], s => some (s, [])
  | .enc x :: os, s => (runAll [.enc x] s).bind fun t => runEnc os t
  | .rdout n :: os, s =>
    (runAll [.rdout n] s).bind fun t =>
      (runEnc os t).map fun r => (r.1, (List.range t.result1.toNat).map (wordDigit t.result0) ++ r.2)

/-- The symbols encoded, in order. -/
def encoded : List EncOp → List Sym
  | [] => []
  | .enc x :: os => x :: encoded os
  | .rdout _ :: os => encoded os

/-- What a host does with the decoder: feed the first n digits of a word (DATA, then DEC), or take a symbol (R218). -/
inductive DecOp where
  | dec (n : Nat) (v : Word)
  | pop
  deriving DecidableEq, Repr

/-- The decoder run by a host, with the symbols it has popped, RESULT0[7:0] where RESULT0[8] = 1 (R214, R218); none where a
command raises an error. -/
def runDec : List DecOp → State → Option (State × List Sym)
  | [], s => some (s, [])
  | .dec n v :: os, s => (runAll [.dec n] { s with curData := v }).bind fun t => runDec os t
  | .pop :: os, s =>
    (runAll [.popsym] s).bind fun t =>
      (runDec os t).map fun r =>
        (r.1, (if t.result0.getLsbD 8 then [t.result0.setWidth 8] else []) ++ r.2)

/-- The digits fed, in order. -/
def fed : List DecOp → Digits
  | [] => []
  | .dec n v :: os => (List.range n).map (wordDigit v) ++ fed os
  | .pop :: os => fed os

/-- A turn that can clear ESTICKY: a reset, a write of 1 to STATUS bit 2, or the command SRESET (R32, R249). -/
def Turn.hidesErrors : Turn → Bool
  | .reset => true
  | .engine => false
  | .host (.read _ _) => false
  | .host (.write off _ v) =>
    (decide (regAt off = .status) && v.getLsbD 2) || (decide (regAt off = .cmd) && decide (v = 0x01000000#32))

/-- Nothing from here on hides an error: no turn to come does, no SRESET is running and no reset sequence is (R249). -/
abbrev State.Unhidden (s : State) : Prop :=
  (∀ t ∈ s.turns, t.hidesErrors = false) ∧ (s.busy = true → s.curCmd ≠ 0x01000000#32) ∧ s.resetting = false

end Sys2Proof.Machine
end

