-- ==== Sys2Proof/Certificates/Slice0/Obligations.lean ====
section
/-! DEFINITION. The statements for the provers: encoding, the host's accesses, the command cycle, every command, and the
whole-machine rules of the spec. Each docstring names the rule it formalises. -/

open Sys2Proof Sys2Proof.Machine

/-! ## Encoding -/

/-- R106, R112: decoding the word of a well-formed command gives the command back, with every operand. -/
def Obligations.EncodeThenDecode : Prop := ∀ i : Instr, i.wf = true → decode (encode i) = some i

/-- R102, R106: a word that decodes is the word of the command it decodes to, so no two words stand for one command. -/
def Obligations.DecodeThenEncode : Prop := ∀ (w : Word) (i : Instr), decode w = some i → i.wf = true ∧ encode i = w

/-- The rows of R106 by opcode, each with the number of low bits its format leaves free (R102): 0 for N, 8 for S, 11 for SW,
9 for NI, 5 for C. -/
def Sys2Proof.Machine.formatRows : List (Nat × Nat) :=
  [(0x00, 0), (0x01, 0), (0x02, 0), (0x03, 8), (0x04, 8), (0x05, 8), (0x06, 0), (0x07, 9), (0x08, 0), (0x09, 0), (0x0A, 8),
   (0x0B, 11), (0x0C, 8), (0x0D, 11), (0x0E, 8), (0x0F, 5), (0x10, 0), (0x11, 5), (0x12, 0), (0x13, 0), (0x14, 0)]

/-- R102, R106, R107, R110: the legal words are exactly those with an assigned opcode in bits 31:24 and every reserved bit 0. -/
def Obligations.LegalWordsExactly : Prop :=
  ∀ w : Word, (decode w).isSome = true ↔ ∃ r ∈ formatRows, w.toNat / 2 ^ 24 = r.1 ∧ w.toNat % 2 ^ 24 < 2 ^ r.2

/-- R109: opcodes 0x15 to 0xFF are reserved, and a word with one is illegal. -/
def Obligations.ReservedOpcodesAreIllegal : Prop := ∀ w : Word, 0x15 ≤ (w.extractLsb' 24 8).toNat → decode w = none

/-- R115: the worked encodings, read both ways. -/
def Obligations.WorkedEncodings : Prop :=
  ∀ p ∈ [(0x03000061#32, Instr.incfreq 0x61#8), (0x0E000064#32, .enc 0x64#8), (0x0D000761#32, .rdctw 0x61#8 7#3),
      (0x07000008#32, .rdnode 8#9), (0x070001FE#32, .rdnode 510#9), (0x0F00001F#32, .rdout 32), (0x0F000000#32, .rdout 1),
      (0x11000012#32, .dec 19), (0x06000000#32, .build), (0x12000000#32, .decend)],
    decode p.1 = some p.2 ∧ encode p.2 = p.1

/-- R106, R112: on each mnemonic the assembler accepts exactly the operands in range of its format (none; s up to 255; s up to 255
and w up to 7; i up to 511; n from 1 to 32), refuses every other operand list, and its word is the mnemonic's match OR (s) OR
(w << 8) OR (i) OR (n - 1); that word decodes to the accepted command. -/
def Obligations.AssemblerIsSound : Prop :=
  (∀ m ops i, assemble m ops = some i → i.wf = true ∧ decode (encode i) = some i) ∧
  (∀ p ∈ [(Mnemonic.NOP, 0x00000000#32), (.SRESET, 0x01000000#32), (.CLRFREQ, 0x02000000#32), (.BUILD, 0x06000000#32),
      (.DERIVE, 0x08000000#32), (.CLRCT, 0x09000000#32), (.CLROUT, 0x10000000#32), (.DECEND, 0x12000000#32),
      (.POPSYM, 0x13000000#32), (.DECRST, 0x14000000#32)],
    (assemble p.1 []).map encode = some p.2 ∧ ∀ ops, ops.length ≠ 0 → assemble p.1 ops = none) ∧
  (∀ p ∈ [(Mnemonic.INCFREQ, 0x03000000#32), (.SETFREQ, 0x04000000#32), (.RDFREQ, 0x05000000#32), (.WRCTL, 0x0A000000#32),
      (.RDCTL, 0x0C000000#32), (.ENC, 0x0E000000#32)],
    (∀ x, (assemble p.1 [x]).map encode = if x ≤ 255 then some (p.2 ||| BitVec.ofNat 32 x) else none) ∧
      ∀ ops, ops.length ≠ 1 → assemble p.1 ops = none) ∧
  (∀ p ∈ [(Mnemonic.WRCTW, 0x0B000000#32), (.RDCTW, 0x0D000000#32)],
    (∀ x w, (assemble p.1 [x, w]).map encode =
        if x ≤ 255 ∧ w ≤ 7 then some (p.2 ||| BitVec.ofNat 32 x ||| (BitVec.ofNat 32 w <<< 8)) else none) ∧
      ∀ ops, ops.length ≠ 2 → assemble p.1 ops = none) ∧
  ((∀ i, (assemble .RDNODE [i]).map encode = if i ≤ 511 then some (0x07000000#32 ||| BitVec.ofNat 32 i) else none) ∧
    ∀ ops, ops.length ≠ 1 → assemble .RDNODE ops = none) ∧
  (∀ p ∈ [(Mnemonic.RDOUT, 0x0F000000#32), (.DEC, 0x11000000#32)],
    (∀ n, (assemble p.1 [n]).map encode = if 1 ≤ n ∧ n ≤ 32 then some (p.2 ||| BitVec.ofNat 32 (n - 1)) else none) ∧
      ∀ ops, ops.length ≠ 1 → assemble p.1 ops = none)

/-! ## The command cycle -/

/-- R131: the engine's turn completes the command latched in CUR_CMD. That the engine moves where the turn list gives it a turn and
past the end of the list is the model's choice (log 1). -/
def Obligations.StepRunsDecodedCommand : Prop :=
  ∀ (s : State) (i : Instr), s.busy = true → s.resetting = false → decode s.curCmd = some i →
    (s.turns = [] → step s = exec i s) ∧
    (∀ ts, s.turns = .engine :: ts → step s = exec i { s with turns := ts })

/-- R110: a word with a reserved OP, or with a defined OP and a reserved bit set, is accepted like any other, and its completion
raises ILLEGAL_COMMAND (code 4) and changes nothing else. -/
def Obligations.IllegalWordRaisesIllegalCommand : Prop :=
  ∀ (s : State) (v : Word) (ts : List Turn),
    (0x15 ≤ v.toNat / 2 ^ 24 ∨ ∃ r ∈ formatRows, v.toNat / 2 ^ 24 = r.1 ∧ 2 ^ r.2 ≤ v.toNat % 2 ^ 24) →
    s.busy = false → s.resetting = false →
    s.turns = .host (.write 0x14 4 v) :: .engine :: ts →
    step s = .next { s with curCmd := v, curData := s.data, busy := true, turns := .engine :: ts } ∧
    step { s with curCmd := v, curData := s.data, busy := true, turns := .engine :: ts } =
      .next { s with
        curCmd := v, curData := s.data, busy := false, turns := ts, ecode := 4, err := true, esticky := true }

/-- R130: a CMD write is accepted when BUSY = 0, latching the word and DATA; when BUSY = 1 it sets OVR and nothing else. -/
def Obligations.CommandAcceptance : Prop :=
  ∀ (s : State) (v : Word) (ts : List Turn), s.turns = .host (.write 0x14 4 v) :: ts →
    (s.busy = false → step s = .next { s with curCmd := v, curData := s.data, busy := true, turns := ts }) ∧
    (s.busy = true → step s = .next { s with ovr := true, turns := ts })

/-- R131, R249: every command completes from every state, with BUSY = 0, ERR = (ECODE != 0), and ESTICKY set if an error was
raised. -/
def Obligations.EveryCommandCompletes : Prop :=
  ∀ (i : Instr) (s : State), ∃ t, exec i s = .next t ∧ t.busy = false ∧ t.err = (t.ecode != 0) ∧
    (t.ecode ≠ 0 → t.esticky = true)

/-- R233: a command that raises an error changes ECODE, ERR, ESTICKY and BUSY and nothing else. -/
def Obligations.FailedCommandChangesNothingElse : Prop :=
  ∀ (s t : State), complete s = .next t → t.ecode ≠ 0 → t = failedWith t.ecode s

/-- R232: which errors each command can raise. -/
def Obligations.ErrorsOfEachCommand : Prop :=
  ∀ (i : Instr) (s t : State), exec i s = .next t → t.ecode = 0 ∨ t.ecode ∈ errorsOf i

/-- R35 and R133 for the results, R41, R43, R44, R46, R47, R48 for the memories, R27 and R33 for the host's registers: a
command writes only the parts the rules name for it. The latches CUR_CMD and CUR_DATA are written by SRESET (R50, R262; log 13)
and by no other command (R131); that SRESET writes the results, which R35 does not list, is log 19. -/
def Obligations.CommandsWriteOnlyTheirParts : Prop :=
  ∀ (i : Instr) (s t : State), exec i s = .next t → KeptBut (mayWrite i) s t

/-- R131: a command's `exec` never reads DATA, and reads CUR_CMD only through the decoder: two states that differ in DATA and
CUR_CMD alone complete the same decoded command alike, and differ in them alone afterwards, CUR_CMD not after SRESET, which sets it to 0
(log 13). -/
def Obligations.CommandsIgnoreDataAndCmd : Prop :=
  ∀ (i : Instr) (s t : State) (d c : Word), exec i s = .next t →
    exec i { s with data := d, curCmd := c } = .next { t with data := d, curCmd := if i = .sreset then 0 else c }

/-! ## Host accesses -/

/-- R63, R39: what an aligned 32-bit read of each offset returns, a draw where the rule marks one; no read changes any state of
the block. That a draw is `Config.draw` at a counter which the read advances by `k` is the model's choice (log 3), and so is the
list of values read (log 8). -/
def Obligations.HostReadValues : Prop :=
  ∀ (s : State) (off : BitVec 8) (ts : List Turn), s.turns = .host (.read off 4) :: ts → off.toNat % 4 = 0 →
    ∃ (v : Word) (k : Nat),
      step s = .next { s with turns := ts, readBack := v :: s.readBack, draws := s.draws + k } ∧
      (off = 0x00 → v = 0x48554601#32) ∧
      (off = 0x04 → v = 0x20FF1808#32) ∧
      (off = 0x08 → v = 0x01FF0400#32) ∧
      (off = 0x10 → v = s.data) ∧
      (off = 0x14 → v = 0) ∧
      (off = 0x18 → v.getLsbD 0 = s.busy ∧ v.getLsbD 1 = s.err ∧ v.getLsbD 2 = s.esticky ∧ v.getLsbD 3 = s.ovr ∧
        v.extractLsb' 4 4 = s.ecode ∧ v.extractLsb' 11 21 = 0 ∧
        (s.busy = false → v.getLsbD 8 = s.treeValid ∧ (v.getLsbD 9 = true ↔ s.accLen ≠ 0 ∨ s.accOvf = true) ∧
          v.getLsbD 10 = s.accOvf) ∧
        (s.busy = true → v.extractLsb' 8 3 = (Config.draw s.draws).extractLsb' 8 3)) ∧
      (off = 0x1C → v = if s.busy then Config.draw s.draws else s.result0) ∧
      (off = 0x20 → v = if s.busy then Config.draw s.draws else s.result1) ∧
      (off = 0x24 → (s.busy = true → v = Config.draw s.draws) ∧
        (s.busy = false → v.extractLsb' 0 11 = BitVec.ofNat 11 s.outq.length ∧ v.extractLsb' 11 5 = 0 ∧
          v.extractLsb' 16 6 = BitVec.ofNat 6 s.symq.length ∧ v.extractLsb' 22 2 = 0 ∧ v.extractLsb' 24 8 = s.accLen)) ∧
      (off = 0x28 → (s.busy = true → v = Config.draw s.draws) ∧
        (s.busy = false → v.extractLsb' 0 10 = s.nodeCount ∧ v.extractLsb' 10 6 = 0 ∧ v.extractLsb' 16 9 = s.root ∧
          v.extractLsb' 25 7 = 0)) ∧
      (off = 0x0C ∨ 0x2C ≤ off.toNat → v = 0) ∧
      k = if s.busy = true ∧ (off = 0x18 ∨ off = 0x1C ∨ off = 0x20 ∨ off = 0x24 ∨ off = 0x28) then 1 else 0

/-- R64, R29: what an aligned 32-bit write of each offset does; writes to read-only and reserved offsets are ignored. -/
def Obligations.HostWriteEffects : Prop :=
  ∀ (s : State) (off : BitVec 8) (v : Word) (ts : List Turn), s.turns = .host (.write off 4 v) :: ts → off.toNat % 4 = 0 →
    (off = 0x10 → step s = .next { s with turns := ts, data := v }) ∧
    (off = 0x14 → s.busy = false → step s = .next { s with turns := ts, curCmd := v, curData := s.data, busy := true }) ∧
    (off = 0x14 → s.busy = true → step s = .next { s with turns := ts, ovr := true }) ∧
    (off = 0x18 → step s = .next { s with
      turns := ts, esticky := if v.getLsbD 2 then false else s.esticky, ovr := if v.getLsbD 3 then false else s.ovr }) ∧
    (off ≠ 0x10 → off ≠ 0x14 → off ≠ 0x18 → step s = .next { s with turns := ts })

/-- R62, R238, R249: a step faults exactly on a host access that is not 32 bits wide or not aligned, with the bus error of that
access; nothing else faults and nothing is refused. -/
def Obligations.OnlyBusErrorsStopTheMachine : Prop :=
  (∀ (s : State) (f : Fault), step s = .fault f ↔
    ∃ (off : BitVec 8) (width : Nat) (ts : List Turn),
      (s.turns = .host (.read off width) :: ts ∨ ∃ v, s.turns = .host (.write off width v) :: ts) ∧
      (width ≠ 4 ∨ off.toNat % 4 ≠ 0) ∧ f = .busError off width) ∧
  (∀ (s : State) (r : Refusal), step s ≠ .refused r)

/-- R61: an address in the window at `base` selects its offset, and no other address selects one. HUFB_BASE is open, so this is
said for every base. -/
def Obligations.WindowAddressMap : Prop :=
  (∀ (base : Nat) (off : BitVec 8), windowOffset base (base + off.toNat) = some off) ∧
  (∀ (base addr : Nat), addr < base ∨ base + 256 ≤ addr → windowOffset base addr = none)

/-- R113, R131: a host that waits gets to BUSY = 0, whatever the block was doing and however many polls come first (the turn
list is the model's choice, log 1). -/
def Obligations.WaitEndsWithBusyClear : Prop :=
  ∀ (k : Nat) (s : State), s.turns = waitTurns k → ∃ t, Reaches (k + 2) s t ∧ t.busy = false ∧ t.turns = [] ∧
    ∃ v rest, t.readBack = v :: rest ∧ v.getLsbD 0 = false

/-- R114, R130, R131: the pseudo-instruction with a DATA operand, issued to an idle block, latches the command's word and the
operand and leaves everything else of the block alone, and the engine's next turn runs that command. -/
def Obligations.IssuedCommandRuns : Prop :=
  ∀ (s : State) (v : Word) (i : Instr) (ts : List Turn), i.wf = true → s.busy = false → s.resetting = false →
    s.turns = cmdDataTurns 0 v i ++ .engine :: ts →
    ∃ u, Reaches 4 s u ∧ u.curCmd = encode i ∧ u.curData = v ∧ u.data = v ∧ u.busy = true ∧ u.resetting = false ∧
      u.turns = .engine :: ts ∧ u.ovr = s.ovr ∧ u.ecode = s.ecode ∧ u.err = s.err ∧ u.esticky = s.esticky ∧
      KeptBut [.host, .latches] s u ∧ step u = exec i { u with turns := ts }

/-- R32, R237 (b): a write of 1 to ESTICKY in the same cycle as a completion that sets it leaves it set; the model orders the
write first. R237 (c): a CMD write in the same cycle as a completion is dropped, and
CUR_CMD keeps the completed command's word, or is 0 after SRESET (log 13). -/
def Obligations.SameCycleWritesComeFirst : Prop :=
  (∀ (s t : State) (v : Word), s.busy = true → s.resetting = false → v.getLsbD 2 = true →
    s.turns = sameCycle (.write 0x18 4 v) → Reaches 2 s t → t.ecode ≠ 0 → t.esticky = true) ∧
  (∀ (s t : State) (v : Word), s.busy = true → s.resetting = false → s.turns = sameCycle (.write 0x14 4 v) →
    Reaches 2 s t → t.ovr = true ∧ t.busy = false ∧ t.curCmd = if s.curCmd = 0x01000000#32 then 0 else s.curCmd)

/-- R32: only a host write of 1 to STATUS bit 2, a hardware reset or SRESET clears ESTICKY. That a hardware reset clears it at the
end of the reset sequence and not before is the model's choice (log 6); the engine moving past the end of the turns is log 1. -/
def Obligations.OnlyThreeThingsClearEsticky : Prop :=
  ∀ s t : State, step s = .next t → s.esticky = true → t.esticky = false →
    (∃ v ts, s.turns = .host (.write 0x18 4 v) :: ts ∧ v.getLsbD 2 = true) ∨
    ((s.turns = [] ∨ ∃ ts, s.turns = .engine :: ts) ∧
      (s.resetting = true ∨ (s.busy = true ∧ s.curCmd = 0x01000000#32)))

/-- R33: OVR is set by a CMD write while BUSY = 1 and by nothing else; only a host write of 1 to STATUS bit 3 or a hardware
reset clears it. That a hardware reset clears it at the end of the reset sequence and not before is the model's choice (log 6);
the engine moving past the end of the turns is log 1. -/
def Obligations.OvrIsSetAndClearedByTheHost : Prop :=
  ∀ s t : State, step s = .next t →
    (s.ovr = false → t.ovr = true → s.busy = true ∧ ∃ v ts, s.turns = .host (.write 0x14 4 v) :: ts) ∧
    (s.ovr = true → t.ovr = false → (∃ v ts, s.turns = .host (.write 0x18 4 v) :: ts ∧ v.getLsbD 3 = true) ∨
      (s.resetting = true ∧ (s.turns = [] ∨ ∃ ts, s.turns = .engine :: ts)))

/-- R30, R260: BUSY rises only when a command is accepted or reset is asserted, and falls only on the engine's turn
(past the end of the turns too: the model's choice, log 1). -/
def Obligations.BusySpansAcceptanceToCompletion : Prop :=
  ∀ s t : State, step s = .next t →
    (s.busy = false → t.busy = true →
      (∃ v ts, s.turns = .host (.write 0x14 4 v) :: ts ∧ t.curCmd = v) ∨ ∃ ts, s.turns = .reset :: ts) ∧
    (s.busy = true → t.busy = false → s.turns = [] ∨ ∃ ts, s.turns = .engine :: ts)

/-! ## Reset and control -/

/-- R50, R29, R36, R37: every element right after reset, and STATUS, LEVELS and TREE as they read then. -/
def Obligations.ResetValues : Prop :=
  let s := State.reset
  s.data = 0 ∧ s.curCmd = 0 ∧ s.curData = 0 ∧ s.busy = false ∧ s.err = false ∧ s.esticky = false ∧ s.ovr = false ∧
  s.ecode = 0 ∧ s.result0 = 0 ∧ s.result1 = 0 ∧ (∀ x, s.freqAt x = 0) ∧ s.treeValid = false ∧ s.nodeCount = 0 ∧
  s.root = 0 ∧ (∀ x, (s.ctAt x).len = 0) ∧ (∀ x w, s.ctWord x w = 0) ∧ s.outq = [] ∧ s.acc = [] ∧ s.accLen = 0 ∧
  s.accOvf = false ∧ s.symq = [] ∧ s.status = 0 ∧ s.levels = 0 ∧ s.tree = 0

/-- R260, R50: reset asserted makes BUSY 1; the engine's turn ends the reset sequence, giving every element its value of R50 with
BUSY = 0, whatever the state was; between the two BUSY is 1 after every step, whatever the host does. The model's choices: that
the elements keep their values until the sequence ends (log 6), that the engine also moves past the end of the turns (log 1), and
its own fields, which reset leaves (log 3, log 8). -/
def Obligations.HardwareResetSequence : Prop :=
  (∀ (s : State) (ts : List Turn), s.turns = .reset :: ts →
    step s = .next { s with busy := true, resetting := true, turns := ts }) ∧
  (∀ s : State, s.resetting = true → (s.turns = [] ∨ ∃ ts, s.turns = .engine :: ts) →
    step s = .next { State.reset with turns := s.turns.tail, draws := s.draws, readBack := s.readBack }) ∧
  (∀ (s : State) (mid rest : List Turn), Turn.engine ∉ mid → (rest = [] ∨ ∃ ts, rest = .engine :: ts) →
    s.turns = .reset :: mid ++ rest →
      (∀ j u, j ≤ mid.length → Reaches (j + 1) s u → u.busy = true ∧ u.resetting = true) ∧
      ∀ t, Reaches (mid.length + 2) s t →
        t = { State.reset with turns := rest.tail, draws := t.draws, readBack := t.readBack })

/-- R132: NOP is the one word 0, and it writes ECODE, ERR and BUSY only. -/
def Obligations.NopClearsTheError : Prop :=
  (∀ w : Word, w.extractLsb' 24 8 = 0 → (w = 0 → decode w = some .nop) ∧ (w ≠ 0 → decode w = none)) ∧
  ∀ s : State, exec .nop s = .next { s with ecode := 0, err := false, busy := false }

/-- R133, R50, R262: SRESET gives the hardware-reset state in every element but DATA and OVR: element by element, and as a whole,
where the reset-sequence bit and the model's own fields stay. That CUR_CMD and CUR_DATA, which the writes of R133 do not name, become 0 is log 13; that
RESULT0 and RESULT1, whose writers R35 lists without SRESET, become 0 is log 19. -/
def Obligations.SresetGivesTheResetState : Prop :=
  decode 0x01000000#32 = some .sreset ∧
  ∀ s : State, ∃ t, exec .sreset s = .next t ∧ KeptBut (mayWrite .sreset) s t ∧
    t.curCmd = 0 ∧ t.curData = 0 ∧ (∀ x, t.freqAt x = 0) ∧ t.treeValid = false ∧ t.nodeCount = 0 ∧ t.root = 0 ∧ (∀ x, (t.ctAt x).len = 0) ∧
    (∀ x w, t.ctWord x w = 0) ∧ t.outq = [] ∧ t.acc = [] ∧ t.accLen = 0 ∧ t.accOvf = false ∧ t.symq = [] ∧
    t.result0 = 0 ∧ t.result1 = 0 ∧ t.esticky = false ∧ t.ecode = 0 ∧ t.err = false ∧ t.busy = false ∧
    t = { State.reset with
      data := s.data, ovr := s.ovr, resetting := s.resetting, turns := s.turns, draws := s.draws, readBack := s.readBack }

/-- R140, R175, R192, R215: CLRFREQ, CLRCT, CLROUT and DECRST each empty their own store and nothing else. -/
def Obligations.ClearingCommandsEmptyTheirStore : Prop :=
  (decode 0x02000000#32 = some .clrfreq ∧
    ∀ s : State, ∃ t, exec .clrfreq s = .next t ∧ (∀ x, t.freqAt x = 0) ∧ KeptBut [.freq] s t ∧ Succeeded s t) ∧
  (decode 0x09000000#32 = some .clrct ∧
    ∀ s : State, ∃ t, exec .clrct s = .next t ∧ (∀ x, (t.ctAt x).len = 0) ∧ (∀ x w, t.ctWord x w = 0) ∧
      KeptBut [.ct] s t ∧ Succeeded s t) ∧
  (decode 0x10000000#32 = some .clrout ∧
    ∀ s : State, ∃ t, exec .clrout s = .next t ∧ t.outq = [] ∧ KeptBut [.outq] s t ∧ Succeeded s t) ∧
  (decode 0x14000000#32 = some .decrst ∧
    ∀ s : State, ∃ t, exec .decrst s = .next t ∧ t.acc = [] ∧ t.accLen = 0 ∧ t.accOvf = false ∧ t.symq = [] ∧
      KeptBut [.acc, .symq] s t ∧ Succeeded s t)

/-! ## Frequency table -/

/-- R141: INCFREQ adds one to one count, or raises COUNT_OVERFLOW at FREQ_MAX. -/
def Obligations.IncfreqCountsOneSymbol : Prop :=
  (∀ x : Sym, decode (0x03000000#32 ||| x.setWidth 32) = some (.incfreq x)) ∧
  ∀ (s : State) (x : Sym),
    ((s.freqAt x).toNat = 16777215 → exec (.incfreq x) s = .next (failedWith 5 s)) ∧
    ((s.freqAt x).toNat ≠ 16777215 → ∃ t, exec (.incfreq x) s = .next t ∧
      (t.freqAt x).toNat = (s.freqAt x).toNat + 1 ∧ (∀ y, y ≠ x → t.freqAt y = s.freqAt y) ∧
      KeptBut [.freq] s t ∧ Succeeded s t)

/-- R141: increments commute, as long as none overflows. -/
def Obligations.IncfreqOrderDoesNotMatter : Prop :=
  ∀ (xs ys : List Sym) (s t : State), s.MemoriesOk → xs.Perm ys → runAll (xs.map Instr.incfreq) s = some t →
    runAll (ys.map Instr.incfreq) s = some t

/-- R141: counting a sequence once after CLRFREQ gives each symbol's number of occurrences, where none is above FREQ_MAX. -/
def Obligations.CountingGivesTheFrequencyTable : Prop :=
  ∀ (xs : List Sym) (s : State), (∀ x, xs.count x ≤ 16777215) →
    ∃ t, runAll (.clrfreq :: xs.map Instr.incfreq) s = some t ∧ (∀ x, (t.freqAt x).toNat = xs.count x) ∧
      KeptBut [.freq] s t

/-- R142: SETFREQ writes one count from DATA, or raises VALUE_RANGE above 0xFFFFFF. -/
def Obligations.SetfreqWritesOneCount : Prop :=
  (∀ x : Sym, decode (0x04000000#32 ||| x.setWidth 32) = some (.setfreq x)) ∧
  ∀ (s : State) (x : Sym),
    (16777215 < s.curData.toNat → exec (.setfreq x) s = .next (failedWith 6 s)) ∧
    (s.curData.toNat ≤ 16777215 → ∃ t, exec (.setfreq x) s = .next t ∧ (t.freqAt x).toNat = s.curData.toNat ∧
      (∀ y, y ≠ x → t.freqAt y = s.freqAt y) ∧ KeptBut [.freq] s t ∧ Succeeded s t)

/-- R143: RDFREQ reads one count. -/
def Obligations.RdfreqReadsOneCount : Prop :=
  (∀ x : Sym, decode (0x05000000#32 ||| x.setWidth 32) = some (.rdfreq x)) ∧
  ∀ (s : State) (x : Sym), ∃ t, exec (.rdfreq x) s = .next t ∧ t.result0.toNat = (s.freqAt x).toNat ∧ t.result1 = 0 ∧
    KeptBut [.results] s t ∧ Succeeded s t

/-! ## Tree builder -/

/-- R150, R233: BUILD on a table with every count 0 raises EMPTY_INPUT, and an earlier tree stays. -/
def Obligations.BuildRefusesAnEmptyTable : Prop :=
  ∀ s : State, s.MemoriesOk → (∀ x, s.freqAt x = 0) → exec .build s = .next (failedWith 1 s)

/-- R150, R151, R153, R154, R155, R156 (a) to (d): BUILD on n present symbols gives a valid tree of 2n - 1 nodes, its leaves the
present symbols in ascending order with their counts, its root the last node; it changes nothing else. -/
def Obligations.BuildMakesATree : Prop :=
  ∀ s : State, s.MemoriesOk → (∃ x, s.freqAt x ≠ 0) →
    ∃ t, exec .build s = .next t ∧ t.treeValid = true ∧ t.node.length = 2 * s.present.length - 1 ∧
      t.nodeCount.toNat = 2 * s.present.length - 1 ∧ t.root.toNat = 2 * s.present.length - 2 ∧
      (∀ (k : Nat) (x : Sym), s.present[k]? = some x → t.node[k]? = some (.leaf x ((s.freqAt x).setWidth 32))) ∧
      t.TreeShape ∧ KeptBut [.tree] s t ∧ Succeeded s t

/-- R150, R152, R153: each internal node of BUILD's tree merges the two least keys (weight, index) then in the queue, the least to
the left. A node below k is in the queue when node k is made if it is the child of no node below k. -/
def Obligations.BuildMergesTheTwoLeastKeys : Prop :=
  ∀ s t : State, s.MemoriesOk → exec .build s = .next t → t.ecode = 0 →
    ∀ (k : Nat) (w : Weight) (l r : NodeIx), t.node[k]? = some (.internal w l r) →
      l ≠ r ∧ l.toNat < k ∧ l ∉ childIndices (t.node.take k) ∧ r.toNat < k ∧ r ∉ childIndices (t.node.take k) ∧
      ∀ j : NodeIx, j.toNat < k → j ∉ childIndices (t.node.take k) → j ≠ l →
        keyLt (t.keyAt l) (t.keyAt j) = true ∧ (j ≠ r → keyLt (t.keyAt r) (t.keyAt j) = true)

/-- R156 (e): the root's weight is the sum of all counts. -/
def Obligations.RootWeighsTheWholeTable : Prop :=
  ∀ s t : State, s.MemoriesOk → exec .build s = .next t → t.ecode = 0 →
    (t.weightAt t.root).toNat = (allSyms.map fun x => (s.freqAt x).toNat).sum

/-- R158, R236: RDNODE reads one node, with NO_TREE before NODE_RANGE. -/
def Obligations.RdnodeReadsOneNode : Prop :=
  (∀ i : NodeIx, decode (0x07000000#32 ||| i.setWidth 32) = some (.rdnode i)) ∧
  ∀ (s : State) (i : NodeIx),
    (s.treeValid = false → exec (.rdnode i) s = .next (failedWith 7 s)) ∧
    (s.treeValid = true → s.nodeCount.toNat ≤ i.toNat → exec (.rdnode i) s = .next (failedWith 8 s)) ∧
    (s.treeValid = true → i.toNat < s.nodeCount.toNat → ∃ t, exec (.rdnode i) s = .next t ∧
      KeptBut [.results] s t ∧ Succeeded s t ∧ (t.result1.getLsbD 30 = true ↔ i = s.root) ∧
      (∀ x w, s.nodeAt i = .leaf x w → t.result0 = w ∧ t.result1.getLsbD 31 = true ∧ t.result1.extractLsb' 8 22 = 0 ∧
        t.result1.extractLsb' 0 8 = x) ∧
      (∀ w l r, s.nodeAt i = .internal w l r → t.result0 = w ∧ t.result1.getLsbD 31 = false ∧
        t.result1.extractLsb' 25 5 = 0 ∧ t.result1.extractLsb' 16 9 = r ∧ t.result1.extractLsb' 9 7 = 0 ∧
        t.result1.extractLsb' 0 9 = l))

/-! ## Code table -/

/-- R170, R171: DERIVE needs a tree; it gives every symbol of the tree the digits of its path from the root, 0 to the left and 1 to
the right, a lone symbol the digit 0, every other symbol no code word, and every word bit beyond a code word 0. -/
def Obligations.DeriveGivesEveryPath : Prop :=
  decode 0x08000000#32 = some .derive ∧
  (∀ s : State, s.treeValid = false → exec .derive s = .next (failedWith 7 s)) ∧
  ∀ s : State, s.treeValid = true → s.DescriptorOk → s.TreeInv →
    ∃ t, exec .derive s = .next t ∧ KeptBut [.ct] s t ∧ Succeeded s t ∧
      (nodeSymbol (s.nodeAt s.root) = none → ∀ (x : Sym) (p : Digits),
        s.follow s.root p = some x ↔ t.codeOf x = p ∧ p ≠ []) ∧
      (∀ x, nodeSymbol (s.nodeAt s.root) = some x → t.codeOf x = [false] ∧ ∀ y, y ≠ x → t.codeOf y = []) ∧
      (∀ (x : Sym) (j : Nat), (t.ctAt x).len.toNat ≤ j → j < 256 → entryDigit (t.ctAt x) j = false)

/-- R170, R172, R173 (a): the symbols of the tree, and only they, have a code word; its length is 1 for one leaf and at most n - 1 for n. -/
def Obligations.DerivedLengthsAreBounded : Prop :=
  ∀ s t : State, s.treeValid = true → s.DescriptorOk → s.TreeInv → exec .derive s = .next t →
    ∀ x : Sym, (x ∉ s.node.filterMap nodeSymbol → (t.ctAt x).len = 0) ∧
      (x ∈ s.node.filterMap nodeSymbol → 1 ≤ (t.ctAt x).len.toNat ∧ (s.leafCount = 1 → (t.ctAt x).len = 1) ∧
        (2 ≤ s.leafCount → (t.ctAt x).len.toNat ≤ s.leafCount - 1))

/-- R173 (b), (c): in a derived table no code word is a prefix of another symbol's. -/
def Obligations.DerivedTableIsPrefixFree : Prop :=
  ∀ s t : State, s.treeValid = true → s.DescriptorOk → s.TreeInv → exec .derive s = .next t →
    ∀ x y : Sym, x ≠ y → t.codeOf x ≠ [] → t.codeOf y ≠ [] → ¬ t.codeOf x <+: t.codeOf y

/-- R173 (d): the lengths of a derived table meet the Kraft equality, in units of 2^(-255); a lone symbol gives one half. -/
def Obligations.DerivedLengthsMeetKraftEquality : Prop :=
  ∀ s t : State, s.treeValid = true → s.DescriptorOk → s.TreeInv → exec .derive s = .next t →
    ((allSyms.filter fun x => (t.ctAt x).len != 0).map fun x => 2 ^ (255 - (t.ctAt x).len.toNat)).sum =
      if s.leafCount = 1 then 2 ^ 254 else 2 ^ 255

/-- R176: WRCTL writes one length and no word, or raises VALUE_RANGE above 255. -/
def Obligations.WrctlWritesOneLength : Prop :=
  (∀ x : Sym, decode (0x0A000000#32 ||| x.setWidth 32) = some (.wrctl x)) ∧
  ∀ (s : State) (x : Sym),
    (255 < s.curData.toNat → exec (.wrctl x) s = .next (failedWith 6 s)) ∧
    (s.curData.toNat ≤ 255 → ∃ t, exec (.wrctl x) s = .next t ∧ (t.ctAt x).len.toNat = s.curData.toNat ∧
      (∀ w, t.ctWord x w = s.ctWord x w) ∧ (∀ y, y ≠ x → t.ctAt y = s.ctAt y) ∧ KeptBut [.ct] s t ∧ Succeeded s t)

/-- R177: WRCTW writes one word of one entry and not its length. -/
def Obligations.WrctwWritesOneWord : Prop :=
  (∀ (x : Sym) (w : BitVec 3),
    decode (0x0B000000#32 ||| (w.setWidth 32 <<< 8) ||| x.setWidth 32) = some (.wrctw x w)) ∧
  ∀ (s : State) (x : Sym) (w : BitVec 3), ∃ t, exec (.wrctw x w) s = .next t ∧ t.ctWord x w = s.curData ∧
    (∀ u, u ≠ w → t.ctWord x u = s.ctWord x u) ∧ (t.ctAt x).len = (s.ctAt x).len ∧
    (∀ y, y ≠ x → t.ctAt y = s.ctAt y) ∧ KeptBut [.ct] s t ∧ Succeeded s t

/-- R178, R179: RDCTL reads one length and RDCTW one whole word. -/
def Obligations.RdctlAndRdctwReadTheTable : Prop :=
  (∀ x : Sym, decode (0x0C000000#32 ||| x.setWidth 32) = some (.rdctl x)) ∧
  (∀ (x : Sym) (w : BitVec 3),
    decode (0x0D000000#32 ||| (w.setWidth 32 <<< 8) ||| x.setWidth 32) = some (.rdctw x w)) ∧
  (∀ (s : State) (x : Sym), ∃ t, exec (.rdctl x) s = .next t ∧ t.result0.toNat = (s.ctAt x).len.toNat ∧ t.result1 = 0 ∧
    KeptBut [.results] s t ∧ Succeeded s t) ∧
  (∀ (s : State) (x : Sym) (w : BitVec 3), ∃ t, exec (.rdctw x w) s = .next t ∧ t.result0 = s.ctWord x w ∧ t.result1 = 0 ∧
    KeptBut [.results] s t ∧ Succeeded s t)

/-! ## Encoder -/

/-- R190, R236: ENC appends the code word's digits, first digit first, or raises UNKNOWN_SYMBOL, or else OUTQ_FULL. -/
def Obligations.EncAppendsTheCodeWord : Prop :=
  (∀ x : Sym, decode (0x0E000000#32 ||| x.setWidth 32) = some (.enc x)) ∧
  ∀ (s : State) (x : Sym),
    ((s.ctAt x).len = 0 → exec (.enc x) s = .next (failedWith 2 s)) ∧
    ((s.ctAt x).len ≠ 0 → 1024 - s.outq.length < (s.ctAt x).len.toNat → exec (.enc x) s = .next (failedWith 9 s)) ∧
    ((s.ctAt x).len ≠ 0 → (s.ctAt x).len.toNat ≤ 1024 - s.outq.length → ∃ t, exec (.enc x) s = .next t ∧
      t.outq.length = s.outq.length + (s.ctAt x).len.toNat ∧ s.outq <+: t.outq ∧
      (∀ j, j < (s.ctAt x).len.toNat →
        t.outq[s.outq.length + j]? = some ((s.ctWord x (BitVec.ofNat 3 (j / 32))).getLsbD (31 - j % 32))) ∧
      KeptBut [.outq] s t ∧ Succeeded s t)

/-- R191: RDOUT moves up to n bits from the front of OUTQ to RESULT0, from bit 31 down, with their number in RESULT1. -/
def Obligations.RdoutTakesBitsFromTheFront : Prop :=
  (∀ n, 1 ≤ n → n ≤ 32 → decode (0x0F000000#32 ||| BitVec.ofNat 32 (n - 1)) = some (.rdout n)) ∧
  ∀ (s : State) (n : Nat), 1 ≤ n → n ≤ 32 → ∃ t, exec (.rdout n) s = .next t ∧
    t.result1.toNat = min n s.outq.length ∧
    (∀ j, j < 32 → t.result0.getLsbD (31 - j) = if j < min n s.outq.length then s.outq.getD j false else false) ∧
    t.outq = s.outq.drop (min n s.outq.length) ∧ KeptBut [.outq, .results] s t ∧ Succeeded s t

/-- R193: the bits a host has read, followed by OUTQ, are the code words of the symbols it has encoded, in order, after what
OUTQ held before. -/
def Obligations.StreamIsTheCodeWordsInOrder : Prop :=
  ∀ (os : List EncOp) (s t : State) (bits : Digits), (∀ n, EncOp.rdout n ∈ os → 1 ≤ n ∧ n ≤ 32) →
    runEnc os s = some (t, bits) → bits ++ t.outq = s.outq ++ (encoded os).flatMap s.codeOf

/-! ## Decoder -/

/-- R210, R216: DEC refuses with SYMQ_FULL, consuming nothing, when SYMQ has fewer than n free entries; else it completes,
appends at most n symbols to SYMQ and changes the accumulator and nothing else. -/
def Obligations.DecIsAllOrNothing : Prop :=
  (∀ n, 1 ≤ n → n ≤ 32 → decode (0x11000000#32 ||| BitVec.ofNat 32 (n - 1)) = some (.dec n)) ∧
  ∀ (s : State) (n : Nat), 1 ≤ n → n ≤ 32 →
    (32 - s.symq.length < n → exec (.dec n) s = .next (failedWith 10 s)) ∧
    (n ≤ 32 - s.symq.length → ∃ t, exec (.dec n) s = .next t ∧
      (∃ new, t.symq = s.symq ++ new ∧ new.length ≤ n) ∧ KeptBut [.acc, .symq] s t ∧ Succeeded s t)

/-- The entry of `x` is a code word of `l` digits equal to `a` (R211). -/
def Sys2Proof.Machine.isMatch (s : State) (l : Nat) (a : Digits) (x : Sym) : Prop :=
  (s.ctAt x).len.toNat = l ∧ s.codeOf x = a

/-- R211: one digit, CUR_DATA[31]: discarded under ACC_OVF, setting ACC_OVF over a full accumulator, emitting the lowest symbol
that the lengthened accumulator matches, or only lengthening it. -/
def Obligations.DecTakesOneDigit : Prop :=
  ∀ s : State, s.MemoriesOk → s.symq.length < 32 →
    ∃ t, exec (.dec 1) s = .next t ∧ KeptBut [.acc, .symq] s t ∧ Succeeded s t ∧
      (s.accOvf = true → t.acc = s.acc ∧ t.accLen = s.accLen ∧ t.accOvf = true ∧ t.symq = s.symq) ∧
      (s.accOvf = false → s.accLen = 255 →
        t.acc = s.acc ∧ t.accLen = 255 ∧ t.accOvf = true ∧ t.symq = s.symq) ∧
      (s.accOvf = false → s.accLen ≠ 255 →
        (∀ x, isMatch s (s.accLen.toNat + 1) (s.acc ++ [s.curData.getLsbD 31]) x →
          (∀ y < x, ¬ isMatch s (s.accLen.toNat + 1) (s.acc ++ [s.curData.getLsbD 31]) y) →
          t.acc = [] ∧ t.accLen = 0 ∧ t.accOvf = false ∧ t.symq = s.symq ++ [x]) ∧
        ((∀ x, ¬ isMatch s (s.accLen.toNat + 1) (s.acc ++ [s.curData.getLsbD 31]) x) →
          t.acc = s.acc ++ [s.curData.getLsbD 31] ∧ t.accLen.toNat = s.accLen.toNat + 1 ∧ t.accOvf = false ∧
          t.symq = s.symq))

/-- R210: how a stream is cut into DEC commands makes no difference: DEC (m + k) does what DEC m and then DEC k on the digits that
are left does. -/
def Obligations.DecCutAnywhere : Prop :=
  ∀ (s t : State) (m k : Nat), 1 ≤ m → 1 ≤ k → m + k ≤ 32 → exec (.dec (m + k)) s = .next t → t.ecode = 0 →
    ∃ u, exec (.dec m) s = .next u ∧ u.ecode = 0 ∧
      exec (.dec k) { u with curData := s.curData <<< m } = .next { t with curData := s.curData <<< m }

/-- R212: under ACC_OVF every DEC that is admitted discards its digits, and DECEND reports MALFORMED_STREAM. -/
def Obligations.OverflowDiscardsEveryDigit : Prop :=
  ∀ (s : State) (n : Nat), s.accOvf = true → 1 ≤ n → n ≤ 32 → n ≤ 32 - s.symq.length →
    exec (.dec n) s = .next { s with ecode := 0, err := false, busy := false } ∧
    exec .decend s = .next (failedWith 3 s)

/-- R213: DECEND succeeds exactly on an empty accumulator, and else raises MALFORMED_STREAM; either way the block is unchanged. -/
def Obligations.DecendChecksTheAccumulator : Prop :=
  decode 0x12000000#32 = some .decend ∧
  ∀ s : State, (s.accLen ≠ 0 ∨ s.accOvf = true → exec .decend s = .next (failedWith 3 s)) ∧
    (s.accLen = 0 → s.accOvf = false → exec .decend s = .next { s with ecode := 0, err := false, busy := false })

/-- R214: POPSYM takes the front symbol with VALID in bit 8 and the number left, or returns zeros from an empty SYMQ. -/
def Obligations.PopsymTakesTheFrontSymbol : Prop :=
  decode 0x13000000#32 = some .popsym ∧
  ∀ s : State, ∃ t, exec .popsym s = .next t ∧ KeptBut [.symq, .results] s t ∧ Succeeded s t ∧ t.symq = s.symq.tail ∧
    (s.symq = [] → t.result0 = 0 ∧ t.result1 = 0) ∧
    (∀ x q, s.symq = x :: q → t.result0.extractLsb' 0 8 = x ∧ t.result0.getLsbD 8 = true ∧
      t.result0.extractLsb' 9 23 = 0 ∧ t.result1 = BitVec.ofNat 32 q.length)

/-- The decoder, at `w` and fed the digits `bits` in DEC commands cut anywhere, with POPSYM where the host likes, gives `xs`:
what was popped and what is left in SYMQ are `xs`, the accumulator is empty and DECEND succeeds (R218). -/
def Sys2Proof.Machine.givesBack (bits : Digits) (xs : List Sym) (w : State) : Prop :=
  ∀ (os : List DecOp) (u : State) (popped : List Sym), (∀ n v, DecOp.dec n v ∈ os → 1 ≤ n ∧ n ≤ 32) →
    fed os = bits → runDec os w = some (u, popped) →
      popped ++ u.symq = xs ∧ u.acc = [] ∧ u.accLen = 0 ∧ u.accOvf = false ∧
      exec .decend u = .next { u with ecode := 0, err := false, busy := false }

/-- R218, with R193 for the stream: a table built from a non-empty sequence gives every symbol of it a code word. Where ENC runs on
the sequence, with RDOUT where the host likes until OUTQ is empty, the bits read are the code words in order, and after DECRST
the decoder fed those bits gives the sequence back; and so it does fed the code words themselves, where nothing was encoded. -/
def Obligations.RoundTrip : Prop :=
  ∀ (xs : List Sym) (s : State), xs ≠ [] → (∀ x, xs.count x ≤ 16777215) →
    ∃ t, runAll (.clrfreq :: xs.map Instr.incfreq ++ [.build, .derive, .clrout]) s = some t ∧
      (∀ x ∈ xs, t.codeOf x ≠ []) ∧
      (∀ (es : List EncOp) (v : State) (bits : Digits), (∀ n, EncOp.rdout n ∈ es → 1 ≤ n ∧ n ≤ 32) →
        encoded es = xs → runEnc es t = some (v, bits) → v.outq = [] →
          bits = xs.flatMap t.codeOf ∧ ∃ w, runAll [.decrst] v = some w ∧ givesBack bits xs w) ∧
      ∃ w, runAll [.decrst] t = some w ∧ givesBack (xs.flatMap t.codeOf) xs w

/-! ## Invariants -/

/-- The state right after reset meets both invariants (R43, R50; log 4, log 9). -/
def Obligations.ResetMeetsTheInvariants : Prop := State.reset.Inv ∧ State.reset.TreeInv

/-- R31, R43, R46, R47, R48, R230: every step keeps the invariant: ERR = (ECODE != 0) and no reserved code, the queues within
their capacity, ACC_LEN the length of ACC, the descriptor consistent, FREQ and CT in canonical form. -/
def Obligations.StepKeepsTheInvariant : Prop := ∀ s t : State, s.Inv → step s = .next t → t.Inv

/-- R151, R153, R155, R156: every step keeps a valid tree a tree. -/
def Obligations.StepKeepsTheTreeShape : Prop := ∀ s t : State, s.Inv → s.TreeInv → step s = .next t → t.TreeInv

/-- R249: in a run that hides no error, ESTICKY = 0 at the end means that it was 0 at the start and after every step, and that no
step of the run completes a command (BUSY falls) with an error (ECODE != 0). -/
def Obligations.NoErrorIsHidden : Prop :=
  ∀ (k : Nat) (s t : State), s.Unhidden → Reaches k s t → t.esticky = false →
    (∀ j ≤ k, ∃ u, Reaches j s u ∧ u.esticky = false) ∧
    ∀ j < k, ∃ u v, Reaches j s u ∧ step u = .next v ∧ (u.busy = true → v.busy = false → v.ecode = 0 ∧ v.err = false)
end

