-- ==== Sys2Proof/Laws/Memory.lean ====
section
/-! SUPPORT. The laws of the internal memories: read after write, the canonical form kept by every memory operation, and what
the lists of FREQ and CT say about their elements. -/

namespace Sys2Proof.Machine

variable {α : Type} {d : α} {m : Memory α} {x y : Sym} {v : α}

/-! ## Read after write -/

theorem Memory.get_erase_self : Memory.get d (m.erase x) x = d := by
  induction m with
  | nil => rfl
  | cons c m ih =>
    by_cases h : c.1 = x
    · simpa [Memory.erase, h] using ih
    · simpa [Memory.erase, h, Memory.get] using ih

theorem Memory.get_erase_of_ne (h : y ≠ x) : Memory.get d (m.erase x) y = Memory.get d m y := by
  induction m with
  | nil => rfl
  | cons c m ih =>
    have ih' : Memory.get d (List.filter (fun c => c.1 != x) m) y = Memory.get d m y := ih
    by_cases hc : c.1 = x
    · have : c.1 ≠ y := fun e => h (e.symm.trans hc)
      simp [Memory.erase, hc, Memory.get, ih', Ne.symm h]
    · simp [Memory.erase, hc, Memory.get, ih']

theorem Memory.get_insert_of_ne (h : y ≠ x) : Memory.get d (Memory.insert x v m) y = Memory.get d m y := by
  induction m with
  | nil => simp [Memory.insert, Memory.get, Ne.symm h]
  | cons c m ih =>
    by_cases hc : x < c.1
    · simp [Memory.insert, hc, Memory.get, Ne.symm h]
    · simp [Memory.insert, hc, Memory.get, ih]

theorem Memory.get_insert_self (h : ∀ c ∈ m, c.1 ≠ x) : Memory.get d (Memory.insert x v m) x = v := by
  induction m with
  | nil => simp [Memory.insert, Memory.get]
  | cons c m ih =>
    by_cases hc : x < c.1
    · simp [Memory.insert, hc, Memory.get]
    · have h₁ : c.1 ≠ x := h c (by simp)
      simp [Memory.insert, hc, Memory.get, h₁, ih fun c hm => h c (by simp [hm])]

theorem Memory.erase_ne : ∀ c ∈ Memory.erase m x, c.1 ≠ x := by
  intro c hc
  simpa [Memory.erase] using (List.mem_filter.1 hc).2

/-- A read after a write to the same symbol gives the value written. -/
theorem Memory.get_set_self [DecidableEq α] : Memory.get d (Memory.set d m x v) x = v := by
  unfold Memory.set
  split
  · rename_i h
    rw [h]; exact Memory.get_erase_self
  · exact Memory.get_insert_self Memory.erase_ne

/-- A write leaves every other symbol's element alone. -/
theorem Memory.get_set_of_ne [DecidableEq α] (h : y ≠ x) :
    Memory.get d (Memory.set d m x v) y = Memory.get d m y := by
  unfold Memory.set
  split
  · exact Memory.get_erase_of_ne h
  · rw [Memory.get_insert_of_ne h, Memory.get_erase_of_ne h]

/-! ## The canonical form -/

theorem Memory.wf_nil : Memory.wf d ([] : Memory α) := by simp [Memory.wf]

theorem Memory.wf_iff : Memory.wf d m ↔ m.Pairwise (fun a b => a.1 < b.1) ∧ ∀ c ∈ m, c.2 ≠ d := by
  simp only [Memory.wf, List.mem_map, not_exists, not_and]

theorem Memory.ne_of_mem (h : Memory.wf d m) {c : Sym × α} (hc : c ∈ m) : c.2 ≠ d := (Memory.wf_iff.1 h).2 c hc

theorem Memory.wf_erase (h : Memory.wf d m) : Memory.wf d (m.erase x) :=
  Memory.wf_iff.2 ⟨h.1.filter _, fun _ hc => Memory.ne_of_mem h (List.mem_filter.1 hc).1⟩

theorem Memory.mem_insert {c : Sym × α} : c ∈ Memory.insert x v m ↔ c = (x, v) ∨ c ∈ m := by
  induction m with
  | nil => simp [Memory.insert]
  | cons b m ih =>
    by_cases hb : x < b.1
    · simp [Memory.insert, hb]
    · simp only [Memory.insert, hb, if_false, List.mem_cons, ih]
      tauto

theorem Memory.wf_insert (h : Memory.wf d m) (hx : ∀ c ∈ m, c.1 ≠ x) (hv : v ≠ d) :
    Memory.wf d (Memory.insert x v m) := by
  refine Memory.wf_iff.2 ⟨?_, fun c hc => ?_⟩
  · have hs := h.1
    clear h
    induction m with
    | nil => simp [Memory.insert]
    | cons b m ih =>
      have hb := List.pairwise_cons.1 hs
      by_cases hlt : x < b.1
      · simp only [Memory.insert, hlt, if_true]
        refine List.pairwise_cons.2 ⟨fun c hc => ?_, hs⟩
        rcases List.mem_cons.1 hc with rfl | hc
        · exact hlt
        · exact BitVec.lt_trans hlt (hb.1 c hc)
      · simp only [Memory.insert, hlt, if_false]
        refine List.pairwise_cons.2 ⟨fun c hc => ?_, ih (fun c hc => hx c (by simp [hc])) hb.2⟩
        rcases Memory.mem_insert.1 hc with rfl | hc
        · have h₁ : b.1 ≠ x := hx b (by simp)
          have h₂ : b.1.toNat ≠ x.toNat := fun e => h₁ (BitVec.eq_of_toNat_eq e)
          simp only [BitVec.lt_def] at hlt ⊢
          omega
        · exact hb.1 c hc
  · rcases Memory.mem_insert.1 hc with rfl | hc
    · exact hv
    · exact Memory.ne_of_mem h hc

/-- A write keeps the canonical form. -/
theorem Memory.wf_set [DecidableEq α] (h : Memory.wf d m) : Memory.wf d (Memory.set d m x v) := by
  unfold Memory.set
  split
  · exact Memory.wf_erase h
  · exact Memory.wf_insert (Memory.wf_erase h) Memory.erase_ne ‹_›

/-- An unlisted symbol reads as `d`. -/
theorem Memory.get_of_forall_ne (h : ∀ c ∈ m, c.1 ≠ x) : Memory.get d m x = d := by
  induction m with
  | nil => rfl
  | cons c m ih =>
    have h₁ : c.1 ≠ x := h c (by simp)
    simp [Memory.get, h₁, ih fun c hm => h c (by simp [hm])]

/-- In canonical form a listed pair is what its symbol reads as. -/
theorem Memory.get_of_mem (h : Memory.wf d m) {c : Sym × α} (hc : c ∈ m) : Memory.get d m c.1 = c.2 := by
  induction m with
  | nil => simp at hc
  | cons b m ih =>
    have hb := List.pairwise_cons.1 h.1
    rcases List.mem_cons.1 hc with rfl | hc
    · simp [Memory.get]
    · have hne : b.1 ≠ c.1 := BitVec.ne_of_lt (hb.1 c hc)
      simpa [Memory.get, hne] using ih (Memory.wf_iff.2 ⟨hb.2, fun e he => Memory.ne_of_mem h (by simp [he])⟩) hc

/-- What a symbol reads as, if it is not `d`, is listed. -/
theorem Memory.mem_of_get_ne (h : Memory.get d m x ≠ d) : (x, Memory.get d m x) ∈ m := by
  induction m with
  | nil => simp [Memory.get] at h
  | cons b m ih =>
    by_cases hb : b.1 = x
    · subst hb; simp [Memory.get]
    · simp only [Memory.get, hb, if_false] at h ⊢
      exact List.mem_cons_of_mem _ (ih h)

/-- In canonical form the listed pairs are those whose element is not `d`. -/
theorem Memory.mem_iff_get (h : Memory.wf d m) {c : Sym × α} :
    c ∈ m ↔ Memory.get d m c.1 = c.2 ∧ c.2 ≠ d := by
  refine ⟨fun hc => ⟨Memory.get_of_mem h hc, Memory.ne_of_mem h hc⟩, fun hc => ?_⟩
  have := Memory.mem_of_get_ne (m := m) (d := d) (x := c.1) (by rw [hc.1]; exact hc.2)
  rw [hc.1] at this
  exact this

/-- Two memories in canonical form that read alike everywhere are the same list. -/
theorem Memory.ext_get {m' : Memory α} (h : Memory.wf d m) (h' : Memory.wf d m')
    (he : ∀ x, Memory.get d m x = Memory.get d m' x) : m = m' := by
  have hp : ∀ n : Memory α, n.Pairwise (fun a b => a.1 < b.1) → n.Nodup := fun n hn =>
    hn.imp fun {a b} hab e => by subst e; exact BitVec.lt_irrefl _ hab
  have hperm : m.Perm m' := (List.perm_ext_iff_of_nodup (hp m h.1) (hp m' h'.1)).2 fun c => by
    rw [Memory.mem_iff_get h, Memory.mem_iff_get h', he]
  refine hperm.eq_of_pairwise (le := fun a b => a.1 < b.1) ?_ h.1 h'.1
  intro a b _ _ hab hba
  exact absurd (BitVec.lt_trans hab hba) (BitVec.lt_irrefl _)

/-- The symbols of a memory in canonical form are strictly rising, so there are at most 256 of them. -/
theorem Memory.length_le (h : Memory.wf d m) : m.length ≤ 256 := by
  have hn : (m.map fun c => c.1.toNat).Nodup := by
    refine List.pairwise_map.2 (h.1.imp fun {a b} hab => ?_)
    have := BitVec.lt_def.1 hab
    omega
  have hs : (m.map fun c => c.1.toNat) ⊆ List.range 256 := fun k hk => by
    obtain ⟨c, -, rfl⟩ := List.mem_map.1 hk
    exact List.mem_range.2 c.1.isLt
  simpa using (hn.subperm hs).length_le

/-- The table DERIVE writes is in canonical form. -/
theorem wf_tableOf (cs : List (Sym × Digits)) : Memory.wf emptyEntry (tableOf cs) := by
  have : ∀ (cs : List (Sym × Digits)) (m : Memory CtEntry), Memory.wf emptyEntry m →
      Memory.wf emptyEntry (cs.foldl (fun m c => Memory.set emptyEntry m c.1 (entryOfCode c.2)) m) := by
    intro cs
    induction cs with
    | nil => exact fun m h => h
    | cons c cs ih => exact fun m h => ih _ (Memory.wf_set h)
  exact this cs [] Memory.wf_nil

theorem wf_freq_setFreqAt {s : State} (h : Memory.wf 0 s.freq) (x : Sym) (c : Count) :
    Memory.wf 0 (s.setFreqAt x c).freq := Memory.wf_set h

theorem wf_ct_setCtAt {s : State} (h : Memory.wf emptyEntry s.ct) (x : Sym) (e : CtEntry) :
    Memory.wf emptyEntry (s.setCtAt x e).ct := Memory.wf_set h

/-! ## FREQ and CT -/

@[simp] theorem freqAt_setFreqAt_self (s : State) (x : Sym) (c : Count) : (s.setFreqAt x c).freqAt x = c :=
  Memory.get_set_self

theorem freqAt_setFreqAt_of_ne (s : State) {x y : Sym} (c : Count) (h : y ≠ x) :
    (s.setFreqAt x c).freqAt y = s.freqAt y :=
  Memory.get_set_of_ne h

@[simp] theorem ctAt_setCtAt_self (s : State) (x : Sym) (e : CtEntry) : (s.setCtAt x e).ctAt x = e :=
  Memory.get_set_self

theorem ctAt_setCtAt_of_ne (s : State) {x y : Sym} (e : CtEntry) (h : y ≠ x) :
    (s.setCtAt x e).ctAt y = s.ctAt y :=
  Memory.get_set_of_ne h

/-- FREQ in canonical form lists the symbols with an entry, each with its count (R41). -/
theorem mem_freq_iff (s : State) (h : Memory.wf 0 s.freq) (c : Sym × Count) :
    c ∈ s.freq ↔ s.freqAt c.1 = c.2 ∧ c.2 ≠ 0 :=
  Memory.mem_iff_get h

/-- The match of R211 is `min M`: the symbol matches, and no lower symbol does. -/
theorem matched_eq_some_iff (s : State) (h : Memory.wf emptyEntry s.ct) (hl : s.accLen ≠ 0) (x : Sym) :
    s.matched = some x ↔
      s.matchesAcc (s.ctAt x) = true ∧ ∀ y < x, s.matchesAcc (s.ctAt y) = false := by
  have hemp : s.matchesAcc emptyEntry = false := by
    have : (emptyEntry.len == s.accLen) = false := beq_eq_false_iff_ne.2 fun e => hl e.symm
    simp [State.matchesAcc, this]
  have listed : ∀ y, s.matchesAcc (s.ctAt y) = true → (y, s.ctAt y) ∈ s.ct := fun y hy =>
    Memory.mem_of_get_ne (d := emptyEntry) fun e => by
      rw [show s.ctAt y = emptyEntry from e, hemp] at hy; exact absurd hy (by decide)
  have key : ∀ m : Memory CtEntry, m.Pairwise (fun a b => a.1 < b.1) →
      ∀ e, m.find? (fun c => s.matchesAcc c.2) = some e ↔
        e ∈ m ∧ s.matchesAcc e.2 = true ∧ ∀ c ∈ m, c.1 < e.1 → s.matchesAcc c.2 = false := by
    intro m hm e
    induction m with
    | nil => simp
    | cons b m ih =>
      have hb := List.pairwise_cons.1 hm
      by_cases hbm : s.matchesAcc b.2 = true
      · simp only [List.find?_cons, hbm, Option.some.injEq]
        constructor
        · rintro rfl
          refine ⟨by simp, hbm, fun c hc hlt => ?_⟩
          rcases List.mem_cons.1 hc with rfl | hc
          · exact absurd hlt (BitVec.lt_irrefl _)
          · exact absurd (BitVec.lt_trans hlt (hb.1 c hc)) (BitVec.lt_irrefl _)
        · rintro ⟨he, -, hmin⟩
          rcases List.mem_cons.1 he with rfl | he
          · rfl
          · simp [hmin b (by simp) (hb.1 e he)] at hbm
      · have hbf : s.matchesAcc b.2 = false := by simpa using hbm
        simp only [List.find?_cons, hbf, ih hb.2, List.mem_cons, forall_eq_or_imp]
        constructor
        · rintro ⟨he, hmt, hmin⟩
          exact ⟨Or.inr he, hmt, fun _ => trivial, hmin⟩
        · rintro ⟨he, hmt, -, hmin⟩
          refine ⟨he.resolve_left ?_, hmt, hmin⟩
          rintro rfl; simp [hmt] at hbf
  simp only [State.matched, Option.map_eq_some_iff]
  constructor
  · rintro ⟨e, hf, rfl⟩
    obtain ⟨he, hmt, hmin⟩ := (key s.ct h.1 e).1 hf
    have hget : s.ctAt e.1 = e.2 := Memory.get_of_mem h he
    refine ⟨by rw [hget]; exact hmt, fun y hy => ?_⟩
    by_contra hc
    have hy' : s.matchesAcc (s.ctAt y) = true := by simpa using hc
    have := hmin _ (listed y hy') hy
    simp [hy'] at this
  · rintro ⟨hmt, hmin⟩
    refine ⟨(x, s.ctAt x), (key s.ct h.1 _).2 ⟨listed x hmt, hmt, fun c hc hlt => ?_⟩, rfl⟩
    rw [← Memory.get_of_mem h hc]
    exact hmin c.1 hlt

end Sys2Proof.Machine
end

