-- ==== Sys2Proof/Laws/State.lean ====
section
/-! SUPPORT. What each named update of State does to each field: one lemma per field per update, true by definition. -/

namespace Sys2Proof.Machine

variable (s : State)

/-! ### setFreq -/

@[simp] theorem setFreq_data (m : Memory Count) : (s.setFreq m).data = s.data := rfl
@[simp] theorem setFreq_curCmd (m : Memory Count) : (s.setFreq m).curCmd = s.curCmd := rfl
@[simp] theorem setFreq_curData (m : Memory Count) : (s.setFreq m).curData = s.curData := rfl
@[simp] theorem setFreq_busy (m : Memory Count) : (s.setFreq m).busy = s.busy := rfl
@[simp] theorem setFreq_err (m : Memory Count) : (s.setFreq m).err = s.err := rfl
@[simp] theorem setFreq_esticky (m : Memory Count) : (s.setFreq m).esticky = s.esticky := rfl
@[simp] theorem setFreq_ovr (m : Memory Count) : (s.setFreq m).ovr = s.ovr := rfl
@[simp] theorem setFreq_ecode (m : Memory Count) : (s.setFreq m).ecode = s.ecode := rfl
@[simp] theorem setFreq_result0 (m : Memory Count) : (s.setFreq m).result0 = s.result0 := rfl
@[simp] theorem setFreq_result1 (m : Memory Count) : (s.setFreq m).result1 = s.result1 := rfl
@[simp] theorem setFreq_freq (m : Memory Count) : (s.setFreq m).freq = m := rfl
@[simp] theorem setFreq_node (m : Memory Count) : (s.setFreq m).node = s.node := rfl
@[simp] theorem setFreq_treeValid (m : Memory Count) : (s.setFreq m).treeValid = s.treeValid := rfl
@[simp] theorem setFreq_nodeCount (m : Memory Count) : (s.setFreq m).nodeCount = s.nodeCount := rfl
@[simp] theorem setFreq_root (m : Memory Count) : (s.setFreq m).root = s.root := rfl
@[simp] theorem setFreq_ct (m : Memory Count) : (s.setFreq m).ct = s.ct := rfl
@[simp] theorem setFreq_outq (m : Memory Count) : (s.setFreq m).outq = s.outq := rfl
@[simp] theorem setFreq_acc (m : Memory Count) : (s.setFreq m).acc = s.acc := rfl
@[simp] theorem setFreq_accLen (m : Memory Count) : (s.setFreq m).accLen = s.accLen := rfl
@[simp] theorem setFreq_accOvf (m : Memory Count) : (s.setFreq m).accOvf = s.accOvf := rfl
@[simp] theorem setFreq_symq (m : Memory Count) : (s.setFreq m).symq = s.symq := rfl
@[simp] theorem setFreq_resetting (m : Memory Count) : (s.setFreq m).resetting = s.resetting := rfl
@[simp] theorem setFreq_turns (m : Memory Count) : (s.setFreq m).turns = s.turns := rfl
@[simp] theorem setFreq_draws (m : Memory Count) : (s.setFreq m).draws = s.draws := rfl
@[simp] theorem setFreq_readBack (m : Memory Count) : (s.setFreq m).readBack = s.readBack := rfl

/-! ### setTree -/

@[simp] theorem setTree_data (ns : List Node) (b : Bool) (c : BitVec 10) (r : NodeIx) : (s.setTree ns b c r).data = s.data := rfl
@[simp] theorem setTree_curCmd (ns : List Node) (b : Bool) (c : BitVec 10) (r : NodeIx) : (s.setTree ns b c r).curCmd = s.curCmd := rfl
@[simp] theorem setTree_curData (ns : List Node) (b : Bool) (c : BitVec 10) (r : NodeIx) : (s.setTree ns b c r).curData = s.curData := rfl
@[simp] theorem setTree_busy (ns : List Node) (b : Bool) (c : BitVec 10) (r : NodeIx) : (s.setTree ns b c r).busy = s.busy := rfl
@[simp] theorem setTree_err (ns : List Node) (b : Bool) (c : BitVec 10) (r : NodeIx) : (s.setTree ns b c r).err = s.err := rfl
@[simp] theorem setTree_esticky (ns : List Node) (b : Bool) (c : BitVec 10) (r : NodeIx) : (s.setTree ns b c r).esticky = s.esticky := rfl
@[simp] theorem setTree_ovr (ns : List Node) (b : Bool) (c : BitVec 10) (r : NodeIx) : (s.setTree ns b c r).ovr = s.ovr := rfl
@[simp] theorem setTree_ecode (ns : List Node) (b : Bool) (c : BitVec 10) (r : NodeIx) : (s.setTree ns b c r).ecode = s.ecode := rfl
@[simp] theorem setTree_result0 (ns : List Node) (b : Bool) (c : BitVec 10) (r : NodeIx) : (s.setTree ns b c r).result0 = s.result0 := rfl
@[simp] theorem setTree_result1 (ns : List Node) (b : Bool) (c : BitVec 10) (r : NodeIx) : (s.setTree ns b c r).result1 = s.result1 := rfl
@[simp] theorem setTree_freq (ns : List Node) (b : Bool) (c : BitVec 10) (r : NodeIx) : (s.setTree ns b c r).freq = s.freq := rfl
@[simp] theorem setTree_node (ns : List Node) (b : Bool) (c : BitVec 10) (r : NodeIx) : (s.setTree ns b c r).node = ns := rfl
@[simp] theorem setTree_treeValid (ns : List Node) (b : Bool) (c : BitVec 10) (r : NodeIx) : (s.setTree ns b c r).treeValid = b := rfl
@[simp] theorem setTree_nodeCount (ns : List Node) (b : Bool) (c : BitVec 10) (r : NodeIx) : (s.setTree ns b c r).nodeCount = c := rfl
@[simp] theorem setTree_root (ns : List Node) (b : Bool) (c : BitVec 10) (r : NodeIx) : (s.setTree ns b c r).root = r := rfl
@[simp] theorem setTree_ct (ns : List Node) (b : Bool) (c : BitVec 10) (r : NodeIx) : (s.setTree ns b c r).ct = s.ct := rfl
@[simp] theorem setTree_outq (ns : List Node) (b : Bool) (c : BitVec 10) (r : NodeIx) : (s.setTree ns b c r).outq = s.outq := rfl
@[simp] theorem setTree_acc (ns : List Node) (b : Bool) (c : BitVec 10) (r : NodeIx) : (s.setTree ns b c r).acc = s.acc := rfl
@[simp] theorem setTree_accLen (ns : List Node) (b : Bool) (c : BitVec 10) (r : NodeIx) : (s.setTree ns b c r).accLen = s.accLen := rfl
@[simp] theorem setTree_accOvf (ns : List Node) (b : Bool) (c : BitVec 10) (r : NodeIx) : (s.setTree ns b c r).accOvf = s.accOvf := rfl
@[simp] theorem setTree_symq (ns : List Node) (b : Bool) (c : BitVec 10) (r : NodeIx) : (s.setTree ns b c r).symq = s.symq := rfl
@[simp] theorem setTree_resetting (ns : List Node) (b : Bool) (c : BitVec 10) (r : NodeIx) : (s.setTree ns b c r).resetting = s.resetting := rfl
@[simp] theorem setTree_turns (ns : List Node) (b : Bool) (c : BitVec 10) (r : NodeIx) : (s.setTree ns b c r).turns = s.turns := rfl
@[simp] theorem setTree_draws (ns : List Node) (b : Bool) (c : BitVec 10) (r : NodeIx) : (s.setTree ns b c r).draws = s.draws := rfl
@[simp] theorem setTree_readBack (ns : List Node) (b : Bool) (c : BitVec 10) (r : NodeIx) : (s.setTree ns b c r).readBack = s.readBack := rfl

/-! ### setCt -/

@[simp] theorem setCt_data (m : Memory CtEntry) : (s.setCt m).data = s.data := rfl
@[simp] theorem setCt_curCmd (m : Memory CtEntry) : (s.setCt m).curCmd = s.curCmd := rfl
@[simp] theorem setCt_curData (m : Memory CtEntry) : (s.setCt m).curData = s.curData := rfl
@[simp] theorem setCt_busy (m : Memory CtEntry) : (s.setCt m).busy = s.busy := rfl
@[simp] theorem setCt_err (m : Memory CtEntry) : (s.setCt m).err = s.err := rfl
@[simp] theorem setCt_esticky (m : Memory CtEntry) : (s.setCt m).esticky = s.esticky := rfl
@[simp] theorem setCt_ovr (m : Memory CtEntry) : (s.setCt m).ovr = s.ovr := rfl
@[simp] theorem setCt_ecode (m : Memory CtEntry) : (s.setCt m).ecode = s.ecode := rfl
@[simp] theorem setCt_result0 (m : Memory CtEntry) : (s.setCt m).result0 = s.result0 := rfl
@[simp] theorem setCt_result1 (m : Memory CtEntry) : (s.setCt m).result1 = s.result1 := rfl
@[simp] theorem setCt_freq (m : Memory CtEntry) : (s.setCt m).freq = s.freq := rfl
@[simp] theorem setCt_node (m : Memory CtEntry) : (s.setCt m).node = s.node := rfl
@[simp] theorem setCt_treeValid (m : Memory CtEntry) : (s.setCt m).treeValid = s.treeValid := rfl
@[simp] theorem setCt_nodeCount (m : Memory CtEntry) : (s.setCt m).nodeCount = s.nodeCount := rfl
@[simp] theorem setCt_root (m : Memory CtEntry) : (s.setCt m).root = s.root := rfl
@[simp] theorem setCt_ct (m : Memory CtEntry) : (s.setCt m).ct = m := rfl
@[simp] theorem setCt_outq (m : Memory CtEntry) : (s.setCt m).outq = s.outq := rfl
@[simp] theorem setCt_acc (m : Memory CtEntry) : (s.setCt m).acc = s.acc := rfl
@[simp] theorem setCt_accLen (m : Memory CtEntry) : (s.setCt m).accLen = s.accLen := rfl
@[simp] theorem setCt_accOvf (m : Memory CtEntry) : (s.setCt m).accOvf = s.accOvf := rfl
@[simp] theorem setCt_symq (m : Memory CtEntry) : (s.setCt m).symq = s.symq := rfl
@[simp] theorem setCt_resetting (m : Memory CtEntry) : (s.setCt m).resetting = s.resetting := rfl
@[simp] theorem setCt_turns (m : Memory CtEntry) : (s.setCt m).turns = s.turns := rfl
@[simp] theorem setCt_draws (m : Memory CtEntry) : (s.setCt m).draws = s.draws := rfl
@[simp] theorem setCt_readBack (m : Memory CtEntry) : (s.setCt m).readBack = s.readBack := rfl

/-! ### setOutq -/

@[simp] theorem setOutq_data (q : Digits) : (s.setOutq q).data = s.data := rfl
@[simp] theorem setOutq_curCmd (q : Digits) : (s.setOutq q).curCmd = s.curCmd := rfl
@[simp] theorem setOutq_curData (q : Digits) : (s.setOutq q).curData = s.curData := rfl
@[simp] theorem setOutq_busy (q : Digits) : (s.setOutq q).busy = s.busy := rfl
@[simp] theorem setOutq_err (q : Digits) : (s.setOutq q).err = s.err := rfl
@[simp] theorem setOutq_esticky (q : Digits) : (s.setOutq q).esticky = s.esticky := rfl
@[simp] theorem setOutq_ovr (q : Digits) : (s.setOutq q).ovr = s.ovr := rfl
@[simp] theorem setOutq_ecode (q : Digits) : (s.setOutq q).ecode = s.ecode := rfl
@[simp] theorem setOutq_result0 (q : Digits) : (s.setOutq q).result0 = s.result0 := rfl
@[simp] theorem setOutq_result1 (q : Digits) : (s.setOutq q).result1 = s.result1 := rfl
@[simp] theorem setOutq_freq (q : Digits) : (s.setOutq q).freq = s.freq := rfl
@[simp] theorem setOutq_node (q : Digits) : (s.setOutq q).node = s.node := rfl
@[simp] theorem setOutq_treeValid (q : Digits) : (s.setOutq q).treeValid = s.treeValid := rfl
@[simp] theorem setOutq_nodeCount (q : Digits) : (s.setOutq q).nodeCount = s.nodeCount := rfl
@[simp] theorem setOutq_root (q : Digits) : (s.setOutq q).root = s.root := rfl
@[simp] theorem setOutq_ct (q : Digits) : (s.setOutq q).ct = s.ct := rfl
@[simp] theorem setOutq_outq (q : Digits) : (s.setOutq q).outq = q := rfl
@[simp] theorem setOutq_acc (q : Digits) : (s.setOutq q).acc = s.acc := rfl
@[simp] theorem setOutq_accLen (q : Digits) : (s.setOutq q).accLen = s.accLen := rfl
@[simp] theorem setOutq_accOvf (q : Digits) : (s.setOutq q).accOvf = s.accOvf := rfl
@[simp] theorem setOutq_symq (q : Digits) : (s.setOutq q).symq = s.symq := rfl
@[simp] theorem setOutq_resetting (q : Digits) : (s.setOutq q).resetting = s.resetting := rfl
@[simp] theorem setOutq_turns (q : Digits) : (s.setOutq q).turns = s.turns := rfl
@[simp] theorem setOutq_draws (q : Digits) : (s.setOutq q).draws = s.draws := rfl
@[simp] theorem setOutq_readBack (q : Digits) : (s.setOutq q).readBack = s.readBack := rfl

/-! ### setAcc -/

@[simp] theorem setAcc_data (a : Digits) (l : BitVec 8) (o : Bool) : (s.setAcc a l o).data = s.data := rfl
@[simp] theorem setAcc_curCmd (a : Digits) (l : BitVec 8) (o : Bool) : (s.setAcc a l o).curCmd = s.curCmd := rfl
@[simp] theorem setAcc_curData (a : Digits) (l : BitVec 8) (o : Bool) : (s.setAcc a l o).curData = s.curData := rfl
@[simp] theorem setAcc_busy (a : Digits) (l : BitVec 8) (o : Bool) : (s.setAcc a l o).busy = s.busy := rfl
@[simp] theorem setAcc_err (a : Digits) (l : BitVec 8) (o : Bool) : (s.setAcc a l o).err = s.err := rfl
@[simp] theorem setAcc_esticky (a : Digits) (l : BitVec 8) (o : Bool) : (s.setAcc a l o).esticky = s.esticky := rfl
@[simp] theorem setAcc_ovr (a : Digits) (l : BitVec 8) (o : Bool) : (s.setAcc a l o).ovr = s.ovr := rfl
@[simp] theorem setAcc_ecode (a : Digits) (l : BitVec 8) (o : Bool) : (s.setAcc a l o).ecode = s.ecode := rfl
@[simp] theorem setAcc_result0 (a : Digits) (l : BitVec 8) (o : Bool) : (s.setAcc a l o).result0 = s.result0 := rfl
@[simp] theorem setAcc_result1 (a : Digits) (l : BitVec 8) (o : Bool) : (s.setAcc a l o).result1 = s.result1 := rfl
@[simp] theorem setAcc_freq (a : Digits) (l : BitVec 8) (o : Bool) : (s.setAcc a l o).freq = s.freq := rfl
@[simp] theorem setAcc_node (a : Digits) (l : BitVec 8) (o : Bool) : (s.setAcc a l o).node = s.node := rfl
@[simp] theorem setAcc_treeValid (a : Digits) (l : BitVec 8) (o : Bool) : (s.setAcc a l o).treeValid = s.treeValid := rfl
@[simp] theorem setAcc_nodeCount (a : Digits) (l : BitVec 8) (o : Bool) : (s.setAcc a l o).nodeCount = s.nodeCount := rfl
@[simp] theorem setAcc_root (a : Digits) (l : BitVec 8) (o : Bool) : (s.setAcc a l o).root = s.root := rfl
@[simp] theorem setAcc_ct (a : Digits) (l : BitVec 8) (o : Bool) : (s.setAcc a l o).ct = s.ct := rfl
@[simp] theorem setAcc_outq (a : Digits) (l : BitVec 8) (o : Bool) : (s.setAcc a l o).outq = s.outq := rfl
@[simp] theorem setAcc_acc (a : Digits) (l : BitVec 8) (o : Bool) : (s.setAcc a l o).acc = a := rfl
@[simp] theorem setAcc_accLen (a : Digits) (l : BitVec 8) (o : Bool) : (s.setAcc a l o).accLen = l := rfl
@[simp] theorem setAcc_accOvf (a : Digits) (l : BitVec 8) (o : Bool) : (s.setAcc a l o).accOvf = o := rfl
@[simp] theorem setAcc_symq (a : Digits) (l : BitVec 8) (o : Bool) : (s.setAcc a l o).symq = s.symq := rfl
@[simp] theorem setAcc_resetting (a : Digits) (l : BitVec 8) (o : Bool) : (s.setAcc a l o).resetting = s.resetting := rfl
@[simp] theorem setAcc_turns (a : Digits) (l : BitVec 8) (o : Bool) : (s.setAcc a l o).turns = s.turns := rfl
@[simp] theorem setAcc_draws (a : Digits) (l : BitVec 8) (o : Bool) : (s.setAcc a l o).draws = s.draws := rfl
@[simp] theorem setAcc_readBack (a : Digits) (l : BitVec 8) (o : Bool) : (s.setAcc a l o).readBack = s.readBack := rfl

/-! ### setSymq -/

@[simp] theorem setSymq_data (q : List Sym) : (s.setSymq q).data = s.data := rfl
@[simp] theorem setSymq_curCmd (q : List Sym) : (s.setSymq q).curCmd = s.curCmd := rfl
@[simp] theorem setSymq_curData (q : List Sym) : (s.setSymq q).curData = s.curData := rfl
@[simp] theorem setSymq_busy (q : List Sym) : (s.setSymq q).busy = s.busy := rfl
@[simp] theorem setSymq_err (q : List Sym) : (s.setSymq q).err = s.err := rfl
@[simp] theorem setSymq_esticky (q : List Sym) : (s.setSymq q).esticky = s.esticky := rfl
@[simp] theorem setSymq_ovr (q : List Sym) : (s.setSymq q).ovr = s.ovr := rfl
@[simp] theorem setSymq_ecode (q : List Sym) : (s.setSymq q).ecode = s.ecode := rfl
@[simp] theorem setSymq_result0 (q : List Sym) : (s.setSymq q).result0 = s.result0 := rfl
@[simp] theorem setSymq_result1 (q : List Sym) : (s.setSymq q).result1 = s.result1 := rfl
@[simp] theorem setSymq_freq (q : List Sym) : (s.setSymq q).freq = s.freq := rfl
@[simp] theorem setSymq_node (q : List Sym) : (s.setSymq q).node = s.node := rfl
@[simp] theorem setSymq_treeValid (q : List Sym) : (s.setSymq q).treeValid = s.treeValid := rfl
@[simp] theorem setSymq_nodeCount (q : List Sym) : (s.setSymq q).nodeCount = s.nodeCount := rfl
@[simp] theorem setSymq_root (q : List Sym) : (s.setSymq q).root = s.root := rfl
@[simp] theorem setSymq_ct (q : List Sym) : (s.setSymq q).ct = s.ct := rfl
@[simp] theorem setSymq_outq (q : List Sym) : (s.setSymq q).outq = s.outq := rfl
@[simp] theorem setSymq_acc (q : List Sym) : (s.setSymq q).acc = s.acc := rfl
@[simp] theorem setSymq_accLen (q : List Sym) : (s.setSymq q).accLen = s.accLen := rfl
@[simp] theorem setSymq_accOvf (q : List Sym) : (s.setSymq q).accOvf = s.accOvf := rfl
@[simp] theorem setSymq_symq (q : List Sym) : (s.setSymq q).symq = q := rfl
@[simp] theorem setSymq_resetting (q : List Sym) : (s.setSymq q).resetting = s.resetting := rfl
@[simp] theorem setSymq_turns (q : List Sym) : (s.setSymq q).turns = s.turns := rfl
@[simp] theorem setSymq_draws (q : List Sym) : (s.setSymq q).draws = s.draws := rfl
@[simp] theorem setSymq_readBack (q : List Sym) : (s.setSymq q).readBack = s.readBack := rfl

/-! ### setResults -/

@[simp] theorem setResults_data (r₀ r₁ : Word) : (s.setResults r₀ r₁).data = s.data := rfl
@[simp] theorem setResults_curCmd (r₀ r₁ : Word) : (s.setResults r₀ r₁).curCmd = s.curCmd := rfl
@[simp] theorem setResults_curData (r₀ r₁ : Word) : (s.setResults r₀ r₁).curData = s.curData := rfl
@[simp] theorem setResults_busy (r₀ r₁ : Word) : (s.setResults r₀ r₁).busy = s.busy := rfl
@[simp] theorem setResults_err (r₀ r₁ : Word) : (s.setResults r₀ r₁).err = s.err := rfl
@[simp] theorem setResults_esticky (r₀ r₁ : Word) : (s.setResults r₀ r₁).esticky = s.esticky := rfl
@[simp] theorem setResults_ovr (r₀ r₁ : Word) : (s.setResults r₀ r₁).ovr = s.ovr := rfl
@[simp] theorem setResults_ecode (r₀ r₁ : Word) : (s.setResults r₀ r₁).ecode = s.ecode := rfl
@[simp] theorem setResults_result0 (r₀ r₁ : Word) : (s.setResults r₀ r₁).result0 = r₀ := rfl
@[simp] theorem setResults_result1 (r₀ r₁ : Word) : (s.setResults r₀ r₁).result1 = r₁ := rfl
@[simp] theorem setResults_freq (r₀ r₁ : Word) : (s.setResults r₀ r₁).freq = s.freq := rfl
@[simp] theorem setResults_node (r₀ r₁ : Word) : (s.setResults r₀ r₁).node = s.node := rfl
@[simp] theorem setResults_treeValid (r₀ r₁ : Word) : (s.setResults r₀ r₁).treeValid = s.treeValid := rfl
@[simp] theorem setResults_nodeCount (r₀ r₁ : Word) : (s.setResults r₀ r₁).nodeCount = s.nodeCount := rfl
@[simp] theorem setResults_root (r₀ r₁ : Word) : (s.setResults r₀ r₁).root = s.root := rfl
@[simp] theorem setResults_ct (r₀ r₁ : Word) : (s.setResults r₀ r₁).ct = s.ct := rfl
@[simp] theorem setResults_outq (r₀ r₁ : Word) : (s.setResults r₀ r₁).outq = s.outq := rfl
@[simp] theorem setResults_acc (r₀ r₁ : Word) : (s.setResults r₀ r₁).acc = s.acc := rfl
@[simp] theorem setResults_accLen (r₀ r₁ : Word) : (s.setResults r₀ r₁).accLen = s.accLen := rfl
@[simp] theorem setResults_accOvf (r₀ r₁ : Word) : (s.setResults r₀ r₁).accOvf = s.accOvf := rfl
@[simp] theorem setResults_symq (r₀ r₁ : Word) : (s.setResults r₀ r₁).symq = s.symq := rfl
@[simp] theorem setResults_resetting (r₀ r₁ : Word) : (s.setResults r₀ r₁).resetting = s.resetting := rfl
@[simp] theorem setResults_turns (r₀ r₁ : Word) : (s.setResults r₀ r₁).turns = s.turns := rfl
@[simp] theorem setResults_draws (r₀ r₁ : Word) : (s.setResults r₀ r₁).draws = s.draws := rfl
@[simp] theorem setResults_readBack (r₀ r₁ : Word) : (s.setResults r₀ r₁).readBack = s.readBack := rfl

/-! ### setSticky -/

@[simp] theorem setSticky_data (b : Bool) : (s.setSticky b).data = s.data := rfl
@[simp] theorem setSticky_curCmd (b : Bool) : (s.setSticky b).curCmd = s.curCmd := rfl
@[simp] theorem setSticky_curData (b : Bool) : (s.setSticky b).curData = s.curData := rfl
@[simp] theorem setSticky_busy (b : Bool) : (s.setSticky b).busy = s.busy := rfl
@[simp] theorem setSticky_err (b : Bool) : (s.setSticky b).err = s.err := rfl
@[simp] theorem setSticky_esticky (b : Bool) : (s.setSticky b).esticky = b := rfl
@[simp] theorem setSticky_ovr (b : Bool) : (s.setSticky b).ovr = s.ovr := rfl
@[simp] theorem setSticky_ecode (b : Bool) : (s.setSticky b).ecode = s.ecode := rfl
@[simp] theorem setSticky_result0 (b : Bool) : (s.setSticky b).result0 = s.result0 := rfl
@[simp] theorem setSticky_result1 (b : Bool) : (s.setSticky b).result1 = s.result1 := rfl
@[simp] theorem setSticky_freq (b : Bool) : (s.setSticky b).freq = s.freq := rfl
@[simp] theorem setSticky_node (b : Bool) : (s.setSticky b).node = s.node := rfl
@[simp] theorem setSticky_treeValid (b : Bool) : (s.setSticky b).treeValid = s.treeValid := rfl
@[simp] theorem setSticky_nodeCount (b : Bool) : (s.setSticky b).nodeCount = s.nodeCount := rfl
@[simp] theorem setSticky_root (b : Bool) : (s.setSticky b).root = s.root := rfl
@[simp] theorem setSticky_ct (b : Bool) : (s.setSticky b).ct = s.ct := rfl
@[simp] theorem setSticky_outq (b : Bool) : (s.setSticky b).outq = s.outq := rfl
@[simp] theorem setSticky_acc (b : Bool) : (s.setSticky b).acc = s.acc := rfl
@[simp] theorem setSticky_accLen (b : Bool) : (s.setSticky b).accLen = s.accLen := rfl
@[simp] theorem setSticky_accOvf (b : Bool) : (s.setSticky b).accOvf = s.accOvf := rfl
@[simp] theorem setSticky_symq (b : Bool) : (s.setSticky b).symq = s.symq := rfl
@[simp] theorem setSticky_resetting (b : Bool) : (s.setSticky b).resetting = s.resetting := rfl
@[simp] theorem setSticky_turns (b : Bool) : (s.setSticky b).turns = s.turns := rfl
@[simp] theorem setSticky_draws (b : Bool) : (s.setSticky b).draws = s.draws := rfl
@[simp] theorem setSticky_readBack (b : Bool) : (s.setSticky b).readBack = s.readBack := rfl

/-! ### accept -/

@[simp] theorem accept_data (v : Word) : (s.accept v).data = s.data := rfl
@[simp] theorem accept_curCmd (v : Word) : (s.accept v).curCmd = v := rfl
@[simp] theorem accept_curData (v : Word) : (s.accept v).curData = s.data := rfl
@[simp] theorem accept_busy (v : Word) : (s.accept v).busy = true := rfl
@[simp] theorem accept_err (v : Word) : (s.accept v).err = s.err := rfl
@[simp] theorem accept_esticky (v : Word) : (s.accept v).esticky = s.esticky := rfl
@[simp] theorem accept_ovr (v : Word) : (s.accept v).ovr = s.ovr := rfl
@[simp] theorem accept_ecode (v : Word) : (s.accept v).ecode = s.ecode := rfl
@[simp] theorem accept_result0 (v : Word) : (s.accept v).result0 = s.result0 := rfl
@[simp] theorem accept_result1 (v : Word) : (s.accept v).result1 = s.result1 := rfl
@[simp] theorem accept_freq (v : Word) : (s.accept v).freq = s.freq := rfl
@[simp] theorem accept_node (v : Word) : (s.accept v).node = s.node := rfl
@[simp] theorem accept_treeValid (v : Word) : (s.accept v).treeValid = s.treeValid := rfl
@[simp] theorem accept_nodeCount (v : Word) : (s.accept v).nodeCount = s.nodeCount := rfl
@[simp] theorem accept_root (v : Word) : (s.accept v).root = s.root := rfl
@[simp] theorem accept_ct (v : Word) : (s.accept v).ct = s.ct := rfl
@[simp] theorem accept_outq (v : Word) : (s.accept v).outq = s.outq := rfl
@[simp] theorem accept_acc (v : Word) : (s.accept v).acc = s.acc := rfl
@[simp] theorem accept_accLen (v : Word) : (s.accept v).accLen = s.accLen := rfl
@[simp] theorem accept_accOvf (v : Word) : (s.accept v).accOvf = s.accOvf := rfl
@[simp] theorem accept_symq (v : Word) : (s.accept v).symq = s.symq := rfl
@[simp] theorem accept_resetting (v : Word) : (s.accept v).resetting = s.resetting := rfl
@[simp] theorem accept_turns (v : Word) : (s.accept v).turns = s.turns := rfl
@[simp] theorem accept_draws (v : Word) : (s.accept v).draws = s.draws := rfl
@[simp] theorem accept_readBack (v : Word) : (s.accept v).readBack = s.readBack := rfl

/-! ### finishOk -/

@[simp] theorem finishOk_data : (s.finishOk).data = s.data := rfl
@[simp] theorem finishOk_curCmd : (s.finishOk).curCmd = s.curCmd := rfl
@[simp] theorem finishOk_curData : (s.finishOk).curData = s.curData := rfl
@[simp] theorem finishOk_busy : (s.finishOk).busy = false := rfl
@[simp] theorem finishOk_err : (s.finishOk).err = false := rfl
@[simp] theorem finishOk_esticky : (s.finishOk).esticky = s.esticky := rfl
@[simp] theorem finishOk_ovr : (s.finishOk).ovr = s.ovr := rfl
@[simp] theorem finishOk_ecode : (s.finishOk).ecode = 0 := rfl
@[simp] theorem finishOk_result0 : (s.finishOk).result0 = s.result0 := rfl
@[simp] theorem finishOk_result1 : (s.finishOk).result1 = s.result1 := rfl
@[simp] theorem finishOk_freq : (s.finishOk).freq = s.freq := rfl
@[simp] theorem finishOk_node : (s.finishOk).node = s.node := rfl
@[simp] theorem finishOk_treeValid : (s.finishOk).treeValid = s.treeValid := rfl
@[simp] theorem finishOk_nodeCount : (s.finishOk).nodeCount = s.nodeCount := rfl
@[simp] theorem finishOk_root : (s.finishOk).root = s.root := rfl
@[simp] theorem finishOk_ct : (s.finishOk).ct = s.ct := rfl
@[simp] theorem finishOk_outq : (s.finishOk).outq = s.outq := rfl
@[simp] theorem finishOk_acc : (s.finishOk).acc = s.acc := rfl
@[simp] theorem finishOk_accLen : (s.finishOk).accLen = s.accLen := rfl
@[simp] theorem finishOk_accOvf : (s.finishOk).accOvf = s.accOvf := rfl
@[simp] theorem finishOk_symq : (s.finishOk).symq = s.symq := rfl
@[simp] theorem finishOk_resetting : (s.finishOk).resetting = s.resetting := rfl
@[simp] theorem finishOk_turns : (s.finishOk).turns = s.turns := rfl
@[simp] theorem finishOk_draws : (s.finishOk).draws = s.draws := rfl
@[simp] theorem finishOk_readBack : (s.finishOk).readBack = s.readBack := rfl

/-! ### finishErr -/

@[simp] theorem finishErr_data (e : Error) : (s.finishErr e).data = s.data := rfl
@[simp] theorem finishErr_curCmd (e : Error) : (s.finishErr e).curCmd = s.curCmd := rfl
@[simp] theorem finishErr_curData (e : Error) : (s.finishErr e).curData = s.curData := rfl
@[simp] theorem finishErr_busy (e : Error) : (s.finishErr e).busy = false := rfl
@[simp] theorem finishErr_err (e : Error) : (s.finishErr e).err = true := rfl
@[simp] theorem finishErr_esticky (e : Error) : (s.finishErr e).esticky = true := rfl
@[simp] theorem finishErr_ovr (e : Error) : (s.finishErr e).ovr = s.ovr := rfl
@[simp] theorem finishErr_ecode (e : Error) : (s.finishErr e).ecode = e.code := rfl
@[simp] theorem finishErr_result0 (e : Error) : (s.finishErr e).result0 = s.result0 := rfl
@[simp] theorem finishErr_result1 (e : Error) : (s.finishErr e).result1 = s.result1 := rfl
@[simp] theorem finishErr_freq (e : Error) : (s.finishErr e).freq = s.freq := rfl
@[simp] theorem finishErr_node (e : Error) : (s.finishErr e).node = s.node := rfl
@[simp] theorem finishErr_treeValid (e : Error) : (s.finishErr e).treeValid = s.treeValid := rfl
@[simp] theorem finishErr_nodeCount (e : Error) : (s.finishErr e).nodeCount = s.nodeCount := rfl
@[simp] theorem finishErr_root (e : Error) : (s.finishErr e).root = s.root := rfl
@[simp] theorem finishErr_ct (e : Error) : (s.finishErr e).ct = s.ct := rfl
@[simp] theorem finishErr_outq (e : Error) : (s.finishErr e).outq = s.outq := rfl
@[simp] theorem finishErr_acc (e : Error) : (s.finishErr e).acc = s.acc := rfl
@[simp] theorem finishErr_accLen (e : Error) : (s.finishErr e).accLen = s.accLen := rfl
@[simp] theorem finishErr_accOvf (e : Error) : (s.finishErr e).accOvf = s.accOvf := rfl
@[simp] theorem finishErr_symq (e : Error) : (s.finishErr e).symq = s.symq := rfl
@[simp] theorem finishErr_resetting (e : Error) : (s.finishErr e).resetting = s.resetting := rfl
@[simp] theorem finishErr_turns (e : Error) : (s.finishErr e).turns = s.turns := rfl
@[simp] theorem finishErr_draws (e : Error) : (s.finishErr e).draws = s.draws := rfl
@[simp] theorem finishErr_readBack (e : Error) : (s.finishErr e).readBack = s.readBack := rfl

/-! ### setTurns -/

@[simp] theorem setTurns_data (ts : List Turn) : (s.setTurns ts).data = s.data := rfl
@[simp] theorem setTurns_curCmd (ts : List Turn) : (s.setTurns ts).curCmd = s.curCmd := rfl
@[simp] theorem setTurns_curData (ts : List Turn) : (s.setTurns ts).curData = s.curData := rfl
@[simp] theorem setTurns_busy (ts : List Turn) : (s.setTurns ts).busy = s.busy := rfl
@[simp] theorem setTurns_err (ts : List Turn) : (s.setTurns ts).err = s.err := rfl
@[simp] theorem setTurns_esticky (ts : List Turn) : (s.setTurns ts).esticky = s.esticky := rfl
@[simp] theorem setTurns_ovr (ts : List Turn) : (s.setTurns ts).ovr = s.ovr := rfl
@[simp] theorem setTurns_ecode (ts : List Turn) : (s.setTurns ts).ecode = s.ecode := rfl
@[simp] theorem setTurns_result0 (ts : List Turn) : (s.setTurns ts).result0 = s.result0 := rfl
@[simp] theorem setTurns_result1 (ts : List Turn) : (s.setTurns ts).result1 = s.result1 := rfl
@[simp] theorem setTurns_freq (ts : List Turn) : (s.setTurns ts).freq = s.freq := rfl
@[simp] theorem setTurns_node (ts : List Turn) : (s.setTurns ts).node = s.node := rfl
@[simp] theorem setTurns_treeValid (ts : List Turn) : (s.setTurns ts).treeValid = s.treeValid := rfl
@[simp] theorem setTurns_nodeCount (ts : List Turn) : (s.setTurns ts).nodeCount = s.nodeCount := rfl
@[simp] theorem setTurns_root (ts : List Turn) : (s.setTurns ts).root = s.root := rfl
@[simp] theorem setTurns_ct (ts : List Turn) : (s.setTurns ts).ct = s.ct := rfl
@[simp] theorem setTurns_outq (ts : List Turn) : (s.setTurns ts).outq = s.outq := rfl
@[simp] theorem setTurns_acc (ts : List Turn) : (s.setTurns ts).acc = s.acc := rfl
@[simp] theorem setTurns_accLen (ts : List Turn) : (s.setTurns ts).accLen = s.accLen := rfl
@[simp] theorem setTurns_accOvf (ts : List Turn) : (s.setTurns ts).accOvf = s.accOvf := rfl
@[simp] theorem setTurns_symq (ts : List Turn) : (s.setTurns ts).symq = s.symq := rfl
@[simp] theorem setTurns_resetting (ts : List Turn) : (s.setTurns ts).resetting = s.resetting := rfl
@[simp] theorem setTurns_turns (ts : List Turn) : (s.setTurns ts).turns = ts := rfl
@[simp] theorem setTurns_draws (ts : List Turn) : (s.setTurns ts).draws = s.draws := rfl
@[simp] theorem setTurns_readBack (ts : List Turn) : (s.setTurns ts).readBack = s.readBack := rfl

/-! ### answer -/

@[simp] theorem answer_data (v : Word) (k : Nat) : (s.answer v k).data = s.data := rfl
@[simp] theorem answer_curCmd (v : Word) (k : Nat) : (s.answer v k).curCmd = s.curCmd := rfl
@[simp] theorem answer_curData (v : Word) (k : Nat) : (s.answer v k).curData = s.curData := rfl
@[simp] theorem answer_busy (v : Word) (k : Nat) : (s.answer v k).busy = s.busy := rfl
@[simp] theorem answer_err (v : Word) (k : Nat) : (s.answer v k).err = s.err := rfl
@[simp] theorem answer_esticky (v : Word) (k : Nat) : (s.answer v k).esticky = s.esticky := rfl
@[simp] theorem answer_ovr (v : Word) (k : Nat) : (s.answer v k).ovr = s.ovr := rfl
@[simp] theorem answer_ecode (v : Word) (k : Nat) : (s.answer v k).ecode = s.ecode := rfl
@[simp] theorem answer_result0 (v : Word) (k : Nat) : (s.answer v k).result0 = s.result0 := rfl
@[simp] theorem answer_result1 (v : Word) (k : Nat) : (s.answer v k).result1 = s.result1 := rfl
@[simp] theorem answer_freq (v : Word) (k : Nat) : (s.answer v k).freq = s.freq := rfl
@[simp] theorem answer_node (v : Word) (k : Nat) : (s.answer v k).node = s.node := rfl
@[simp] theorem answer_treeValid (v : Word) (k : Nat) : (s.answer v k).treeValid = s.treeValid := rfl
@[simp] theorem answer_nodeCount (v : Word) (k : Nat) : (s.answer v k).nodeCount = s.nodeCount := rfl
@[simp] theorem answer_root (v : Word) (k : Nat) : (s.answer v k).root = s.root := rfl
@[simp] theorem answer_ct (v : Word) (k : Nat) : (s.answer v k).ct = s.ct := rfl
@[simp] theorem answer_outq (v : Word) (k : Nat) : (s.answer v k).outq = s.outq := rfl
@[simp] theorem answer_acc (v : Word) (k : Nat) : (s.answer v k).acc = s.acc := rfl
@[simp] theorem answer_accLen (v : Word) (k : Nat) : (s.answer v k).accLen = s.accLen := rfl
@[simp] theorem answer_accOvf (v : Word) (k : Nat) : (s.answer v k).accOvf = s.accOvf := rfl
@[simp] theorem answer_symq (v : Word) (k : Nat) : (s.answer v k).symq = s.symq := rfl
@[simp] theorem answer_resetting (v : Word) (k : Nat) : (s.answer v k).resetting = s.resetting := rfl
@[simp] theorem answer_turns (v : Word) (k : Nat) : (s.answer v k).turns = s.turns := rfl
@[simp] theorem answer_draws (v : Word) (k : Nat) : (s.answer v k).draws = s.draws + k := rfl
@[simp] theorem answer_readBack (v : Word) (k : Nat) : (s.answer v k).readBack = v :: s.readBack := rfl

/-! ### writeStatus -/

@[simp] theorem writeStatus_data (v : Word) : (s.writeStatus v).data = s.data := rfl
@[simp] theorem writeStatus_curCmd (v : Word) : (s.writeStatus v).curCmd = s.curCmd := rfl
@[simp] theorem writeStatus_curData (v : Word) : (s.writeStatus v).curData = s.curData := rfl
@[simp] theorem writeStatus_busy (v : Word) : (s.writeStatus v).busy = s.busy := rfl
@[simp] theorem writeStatus_err (v : Word) : (s.writeStatus v).err = s.err := rfl
@[simp] theorem writeStatus_esticky (v : Word) : (s.writeStatus v).esticky = (s.esticky && !v.getLsbD 2) := rfl
@[simp] theorem writeStatus_ovr (v : Word) : (s.writeStatus v).ovr = (s.ovr && !v.getLsbD 3) := rfl
@[simp] theorem writeStatus_ecode (v : Word) : (s.writeStatus v).ecode = s.ecode := rfl
@[simp] theorem writeStatus_result0 (v : Word) : (s.writeStatus v).result0 = s.result0 := rfl
@[simp] theorem writeStatus_result1 (v : Word) : (s.writeStatus v).result1 = s.result1 := rfl
@[simp] theorem writeStatus_freq (v : Word) : (s.writeStatus v).freq = s.freq := rfl
@[simp] theorem writeStatus_node (v : Word) : (s.writeStatus v).node = s.node := rfl
@[simp] theorem writeStatus_treeValid (v : Word) : (s.writeStatus v).treeValid = s.treeValid := rfl
@[simp] theorem writeStatus_nodeCount (v : Word) : (s.writeStatus v).nodeCount = s.nodeCount := rfl
@[simp] theorem writeStatus_root (v : Word) : (s.writeStatus v).root = s.root := rfl
@[simp] theorem writeStatus_ct (v : Word) : (s.writeStatus v).ct = s.ct := rfl
@[simp] theorem writeStatus_outq (v : Word) : (s.writeStatus v).outq = s.outq := rfl
@[simp] theorem writeStatus_acc (v : Word) : (s.writeStatus v).acc = s.acc := rfl
@[simp] theorem writeStatus_accLen (v : Word) : (s.writeStatus v).accLen = s.accLen := rfl
@[simp] theorem writeStatus_accOvf (v : Word) : (s.writeStatus v).accOvf = s.accOvf := rfl
@[simp] theorem writeStatus_symq (v : Word) : (s.writeStatus v).symq = s.symq := rfl
@[simp] theorem writeStatus_resetting (v : Word) : (s.writeStatus v).resetting = s.resetting := rfl
@[simp] theorem writeStatus_turns (v : Word) : (s.writeStatus v).turns = s.turns := rfl
@[simp] theorem writeStatus_draws (v : Word) : (s.writeStatus v).draws = s.draws := rfl
@[simp] theorem writeStatus_readBack (v : Word) : (s.writeStatus v).readBack = s.readBack := rfl

/-! ### setOvr -/

@[simp] theorem setOvr_data : (s.setOvr).data = s.data := rfl
@[simp] theorem setOvr_curCmd : (s.setOvr).curCmd = s.curCmd := rfl
@[simp] theorem setOvr_curData : (s.setOvr).curData = s.curData := rfl
@[simp] theorem setOvr_busy : (s.setOvr).busy = s.busy := rfl
@[simp] theorem setOvr_err : (s.setOvr).err = s.err := rfl
@[simp] theorem setOvr_esticky : (s.setOvr).esticky = s.esticky := rfl
@[simp] theorem setOvr_ovr : (s.setOvr).ovr = true := rfl
@[simp] theorem setOvr_ecode : (s.setOvr).ecode = s.ecode := rfl
@[simp] theorem setOvr_result0 : (s.setOvr).result0 = s.result0 := rfl
@[simp] theorem setOvr_result1 : (s.setOvr).result1 = s.result1 := rfl
@[simp] theorem setOvr_freq : (s.setOvr).freq = s.freq := rfl
@[simp] theorem setOvr_node : (s.setOvr).node = s.node := rfl
@[simp] theorem setOvr_treeValid : (s.setOvr).treeValid = s.treeValid := rfl
@[simp] theorem setOvr_nodeCount : (s.setOvr).nodeCount = s.nodeCount := rfl
@[simp] theorem setOvr_root : (s.setOvr).root = s.root := rfl
@[simp] theorem setOvr_ct : (s.setOvr).ct = s.ct := rfl
@[simp] theorem setOvr_outq : (s.setOvr).outq = s.outq := rfl
@[simp] theorem setOvr_acc : (s.setOvr).acc = s.acc := rfl
@[simp] theorem setOvr_accLen : (s.setOvr).accLen = s.accLen := rfl
@[simp] theorem setOvr_accOvf : (s.setOvr).accOvf = s.accOvf := rfl
@[simp] theorem setOvr_symq : (s.setOvr).symq = s.symq := rfl
@[simp] theorem setOvr_resetting : (s.setOvr).resetting = s.resetting := rfl
@[simp] theorem setOvr_turns : (s.setOvr).turns = s.turns := rfl
@[simp] theorem setOvr_draws : (s.setOvr).draws = s.draws := rfl
@[simp] theorem setOvr_readBack : (s.setOvr).readBack = s.readBack := rfl

/-! ### setData -/

@[simp] theorem setData_data (v : Word) : (s.setData v).data = v := rfl
@[simp] theorem setData_curCmd (v : Word) : (s.setData v).curCmd = s.curCmd := rfl
@[simp] theorem setData_curData (v : Word) : (s.setData v).curData = s.curData := rfl
@[simp] theorem setData_busy (v : Word) : (s.setData v).busy = s.busy := rfl
@[simp] theorem setData_err (v : Word) : (s.setData v).err = s.err := rfl
@[simp] theorem setData_esticky (v : Word) : (s.setData v).esticky = s.esticky := rfl
@[simp] theorem setData_ovr (v : Word) : (s.setData v).ovr = s.ovr := rfl
@[simp] theorem setData_ecode (v : Word) : (s.setData v).ecode = s.ecode := rfl
@[simp] theorem setData_result0 (v : Word) : (s.setData v).result0 = s.result0 := rfl
@[simp] theorem setData_result1 (v : Word) : (s.setData v).result1 = s.result1 := rfl
@[simp] theorem setData_freq (v : Word) : (s.setData v).freq = s.freq := rfl
@[simp] theorem setData_node (v : Word) : (s.setData v).node = s.node := rfl
@[simp] theorem setData_treeValid (v : Word) : (s.setData v).treeValid = s.treeValid := rfl
@[simp] theorem setData_nodeCount (v : Word) : (s.setData v).nodeCount = s.nodeCount := rfl
@[simp] theorem setData_root (v : Word) : (s.setData v).root = s.root := rfl
@[simp] theorem setData_ct (v : Word) : (s.setData v).ct = s.ct := rfl
@[simp] theorem setData_outq (v : Word) : (s.setData v).outq = s.outq := rfl
@[simp] theorem setData_acc (v : Word) : (s.setData v).acc = s.acc := rfl
@[simp] theorem setData_accLen (v : Word) : (s.setData v).accLen = s.accLen := rfl
@[simp] theorem setData_accOvf (v : Word) : (s.setData v).accOvf = s.accOvf := rfl
@[simp] theorem setData_symq (v : Word) : (s.setData v).symq = s.symq := rfl
@[simp] theorem setData_resetting (v : Word) : (s.setData v).resetting = s.resetting := rfl
@[simp] theorem setData_turns (v : Word) : (s.setData v).turns = s.turns := rfl
@[simp] theorem setData_draws (v : Word) : (s.setData v).draws = s.draws := rfl
@[simp] theorem setData_readBack (v : Word) : (s.setData v).readBack = s.readBack := rfl

/-! ### beginReset -/

@[simp] theorem beginReset_data : (s.beginReset).data = s.data := rfl
@[simp] theorem beginReset_curCmd : (s.beginReset).curCmd = s.curCmd := rfl
@[simp] theorem beginReset_curData : (s.beginReset).curData = s.curData := rfl
@[simp] theorem beginReset_busy : (s.beginReset).busy = true := rfl
@[simp] theorem beginReset_err : (s.beginReset).err = s.err := rfl
@[simp] theorem beginReset_esticky : (s.beginReset).esticky = s.esticky := rfl
@[simp] theorem beginReset_ovr : (s.beginReset).ovr = s.ovr := rfl
@[simp] theorem beginReset_ecode : (s.beginReset).ecode = s.ecode := rfl
@[simp] theorem beginReset_result0 : (s.beginReset).result0 = s.result0 := rfl
@[simp] theorem beginReset_result1 : (s.beginReset).result1 = s.result1 := rfl
@[simp] theorem beginReset_freq : (s.beginReset).freq = s.freq := rfl
@[simp] theorem beginReset_node : (s.beginReset).node = s.node := rfl
@[simp] theorem beginReset_treeValid : (s.beginReset).treeValid = s.treeValid := rfl
@[simp] theorem beginReset_nodeCount : (s.beginReset).nodeCount = s.nodeCount := rfl
@[simp] theorem beginReset_root : (s.beginReset).root = s.root := rfl
@[simp] theorem beginReset_ct : (s.beginReset).ct = s.ct := rfl
@[simp] theorem beginReset_outq : (s.beginReset).outq = s.outq := rfl
@[simp] theorem beginReset_acc : (s.beginReset).acc = s.acc := rfl
@[simp] theorem beginReset_accLen : (s.beginReset).accLen = s.accLen := rfl
@[simp] theorem beginReset_accOvf : (s.beginReset).accOvf = s.accOvf := rfl
@[simp] theorem beginReset_symq : (s.beginReset).symq = s.symq := rfl
@[simp] theorem beginReset_resetting : (s.beginReset).resetting = true := rfl
@[simp] theorem beginReset_turns : (s.beginReset).turns = s.turns := rfl
@[simp] theorem beginReset_draws : (s.beginReset).draws = s.draws := rfl
@[simp] theorem beginReset_readBack : (s.beginReset).readBack = s.readBack := rfl

/-! ### setFreqAt -/

@[simp] theorem setFreqAt_data (x : Sym) (c : Count) : (s.setFreqAt x c).data = s.data := rfl
@[simp] theorem setFreqAt_curCmd (x : Sym) (c : Count) : (s.setFreqAt x c).curCmd = s.curCmd := rfl
@[simp] theorem setFreqAt_curData (x : Sym) (c : Count) : (s.setFreqAt x c).curData = s.curData := rfl
@[simp] theorem setFreqAt_busy (x : Sym) (c : Count) : (s.setFreqAt x c).busy = s.busy := rfl
@[simp] theorem setFreqAt_err (x : Sym) (c : Count) : (s.setFreqAt x c).err = s.err := rfl
@[simp] theorem setFreqAt_esticky (x : Sym) (c : Count) : (s.setFreqAt x c).esticky = s.esticky := rfl
@[simp] theorem setFreqAt_ovr (x : Sym) (c : Count) : (s.setFreqAt x c).ovr = s.ovr := rfl
@[simp] theorem setFreqAt_ecode (x : Sym) (c : Count) : (s.setFreqAt x c).ecode = s.ecode := rfl
@[simp] theorem setFreqAt_result0 (x : Sym) (c : Count) : (s.setFreqAt x c).result0 = s.result0 := rfl
@[simp] theorem setFreqAt_result1 (x : Sym) (c : Count) : (s.setFreqAt x c).result1 = s.result1 := rfl
@[simp] theorem setFreqAt_freq (x : Sym) (c : Count) : (s.setFreqAt x c).freq = Memory.set 0 s.freq x c := rfl
@[simp] theorem setFreqAt_node (x : Sym) (c : Count) : (s.setFreqAt x c).node = s.node := rfl
@[simp] theorem setFreqAt_treeValid (x : Sym) (c : Count) : (s.setFreqAt x c).treeValid = s.treeValid := rfl
@[simp] theorem setFreqAt_nodeCount (x : Sym) (c : Count) : (s.setFreqAt x c).nodeCount = s.nodeCount := rfl
@[simp] theorem setFreqAt_root (x : Sym) (c : Count) : (s.setFreqAt x c).root = s.root := rfl
@[simp] theorem setFreqAt_ct (x : Sym) (c : Count) : (s.setFreqAt x c).ct = s.ct := rfl
@[simp] theorem setFreqAt_outq (x : Sym) (c : Count) : (s.setFreqAt x c).outq = s.outq := rfl
@[simp] theorem setFreqAt_acc (x : Sym) (c : Count) : (s.setFreqAt x c).acc = s.acc := rfl
@[simp] theorem setFreqAt_accLen (x : Sym) (c : Count) : (s.setFreqAt x c).accLen = s.accLen := rfl
@[simp] theorem setFreqAt_accOvf (x : Sym) (c : Count) : (s.setFreqAt x c).accOvf = s.accOvf := rfl
@[simp] theorem setFreqAt_symq (x : Sym) (c : Count) : (s.setFreqAt x c).symq = s.symq := rfl
@[simp] theorem setFreqAt_resetting (x : Sym) (c : Count) : (s.setFreqAt x c).resetting = s.resetting := rfl
@[simp] theorem setFreqAt_turns (x : Sym) (c : Count) : (s.setFreqAt x c).turns = s.turns := rfl
@[simp] theorem setFreqAt_draws (x : Sym) (c : Count) : (s.setFreqAt x c).draws = s.draws := rfl
@[simp] theorem setFreqAt_readBack (x : Sym) (c : Count) : (s.setFreqAt x c).readBack = s.readBack := rfl

/-! ### setCtAt -/

@[simp] theorem setCtAt_data (x : Sym) (e : CtEntry) : (s.setCtAt x e).data = s.data := rfl
@[simp] theorem setCtAt_curCmd (x : Sym) (e : CtEntry) : (s.setCtAt x e).curCmd = s.curCmd := rfl
@[simp] theorem setCtAt_curData (x : Sym) (e : CtEntry) : (s.setCtAt x e).curData = s.curData := rfl
@[simp] theorem setCtAt_busy (x : Sym) (e : CtEntry) : (s.setCtAt x e).busy = s.busy := rfl
@[simp] theorem setCtAt_err (x : Sym) (e : CtEntry) : (s.setCtAt x e).err = s.err := rfl
@[simp] theorem setCtAt_esticky (x : Sym) (e : CtEntry) : (s.setCtAt x e).esticky = s.esticky := rfl
@[simp] theorem setCtAt_ovr (x : Sym) (e : CtEntry) : (s.setCtAt x e).ovr = s.ovr := rfl
@[simp] theorem setCtAt_ecode (x : Sym) (e : CtEntry) : (s.setCtAt x e).ecode = s.ecode := rfl
@[simp] theorem setCtAt_result0 (x : Sym) (e : CtEntry) : (s.setCtAt x e).result0 = s.result0 := rfl
@[simp] theorem setCtAt_result1 (x : Sym) (e : CtEntry) : (s.setCtAt x e).result1 = s.result1 := rfl
@[simp] theorem setCtAt_freq (x : Sym) (e : CtEntry) : (s.setCtAt x e).freq = s.freq := rfl
@[simp] theorem setCtAt_node (x : Sym) (e : CtEntry) : (s.setCtAt x e).node = s.node := rfl
@[simp] theorem setCtAt_treeValid (x : Sym) (e : CtEntry) : (s.setCtAt x e).treeValid = s.treeValid := rfl
@[simp] theorem setCtAt_nodeCount (x : Sym) (e : CtEntry) : (s.setCtAt x e).nodeCount = s.nodeCount := rfl
@[simp] theorem setCtAt_root (x : Sym) (e : CtEntry) : (s.setCtAt x e).root = s.root := rfl
@[simp] theorem setCtAt_ct (x : Sym) (e : CtEntry) : (s.setCtAt x e).ct = Memory.set emptyEntry s.ct x e := rfl
@[simp] theorem setCtAt_outq (x : Sym) (e : CtEntry) : (s.setCtAt x e).outq = s.outq := rfl
@[simp] theorem setCtAt_acc (x : Sym) (e : CtEntry) : (s.setCtAt x e).acc = s.acc := rfl
@[simp] theorem setCtAt_accLen (x : Sym) (e : CtEntry) : (s.setCtAt x e).accLen = s.accLen := rfl
@[simp] theorem setCtAt_accOvf (x : Sym) (e : CtEntry) : (s.setCtAt x e).accOvf = s.accOvf := rfl
@[simp] theorem setCtAt_symq (x : Sym) (e : CtEntry) : (s.setCtAt x e).symq = s.symq := rfl
@[simp] theorem setCtAt_resetting (x : Sym) (e : CtEntry) : (s.setCtAt x e).resetting = s.resetting := rfl
@[simp] theorem setCtAt_turns (x : Sym) (e : CtEntry) : (s.setCtAt x e).turns = s.turns := rfl
@[simp] theorem setCtAt_draws (x : Sym) (e : CtEntry) : (s.setCtAt x e).draws = s.draws := rfl
@[simp] theorem setCtAt_readBack (x : Sym) (e : CtEntry) : (s.setCtAt x e).readBack = s.readBack := rfl

/-! ### softReset -/

@[simp] theorem softReset_data : (s.softReset).data = s.data := rfl
@[simp] theorem softReset_curCmd : (s.softReset).curCmd = 0 := rfl
@[simp] theorem softReset_curData : (s.softReset).curData = 0 := rfl
@[simp] theorem softReset_busy : (s.softReset).busy = s.busy := rfl
@[simp] theorem softReset_err : (s.softReset).err = s.err := rfl
@[simp] theorem softReset_esticky : (s.softReset).esticky = false := rfl
@[simp] theorem softReset_ovr : (s.softReset).ovr = s.ovr := rfl
@[simp] theorem softReset_ecode : (s.softReset).ecode = s.ecode := rfl
@[simp] theorem softReset_result0 : (s.softReset).result0 = 0 := rfl
@[simp] theorem softReset_result1 : (s.softReset).result1 = 0 := rfl
@[simp] theorem softReset_freq : (s.softReset).freq = [] := rfl
@[simp] theorem softReset_node : (s.softReset).node = [] := rfl
@[simp] theorem softReset_treeValid : (s.softReset).treeValid = false := rfl
@[simp] theorem softReset_nodeCount : (s.softReset).nodeCount = 0 := rfl
@[simp] theorem softReset_root : (s.softReset).root = 0 := rfl
@[simp] theorem softReset_ct : (s.softReset).ct = [] := rfl
@[simp] theorem softReset_outq : (s.softReset).outq = [] := rfl
@[simp] theorem softReset_acc : (s.softReset).acc = [] := rfl
@[simp] theorem softReset_accLen : (s.softReset).accLen = 0 := rfl
@[simp] theorem softReset_accOvf : (s.softReset).accOvf = false := rfl
@[simp] theorem softReset_symq : (s.softReset).symq = [] := rfl
@[simp] theorem softReset_resetting : (s.softReset).resetting = s.resetting := rfl
@[simp] theorem softReset_turns : (s.softReset).turns = s.turns := rfl
@[simp] theorem softReset_draws : (s.softReset).draws = s.draws := rfl
@[simp] theorem softReset_readBack : (s.softReset).readBack = s.readBack := rfl

/-! ### endReset -/

@[simp] theorem endReset_data : (s.endReset).data = 0 := rfl
@[simp] theorem endReset_curCmd : (s.endReset).curCmd = 0 := rfl
@[simp] theorem endReset_curData : (s.endReset).curData = 0 := rfl
@[simp] theorem endReset_busy : (s.endReset).busy = false := rfl
@[simp] theorem endReset_err : (s.endReset).err = false := rfl
@[simp] theorem endReset_esticky : (s.endReset).esticky = false := rfl
@[simp] theorem endReset_ovr : (s.endReset).ovr = false := rfl
@[simp] theorem endReset_ecode : (s.endReset).ecode = 0 := rfl
@[simp] theorem endReset_result0 : (s.endReset).result0 = 0 := rfl
@[simp] theorem endReset_result1 : (s.endReset).result1 = 0 := rfl
@[simp] theorem endReset_freq : (s.endReset).freq = [] := rfl
@[simp] theorem endReset_node : (s.endReset).node = [] := rfl
@[simp] theorem endReset_treeValid : (s.endReset).treeValid = false := rfl
@[simp] theorem endReset_nodeCount : (s.endReset).nodeCount = 0 := rfl
@[simp] theorem endReset_root : (s.endReset).root = 0 := rfl
@[simp] theorem endReset_ct : (s.endReset).ct = [] := rfl
@[simp] theorem endReset_outq : (s.endReset).outq = [] := rfl
@[simp] theorem endReset_acc : (s.endReset).acc = [] := rfl
@[simp] theorem endReset_accLen : (s.endReset).accLen = 0 := rfl
@[simp] theorem endReset_accOvf : (s.endReset).accOvf = false := rfl
@[simp] theorem endReset_symq : (s.endReset).symq = [] := rfl
@[simp] theorem endReset_resetting : (s.endReset).resetting = false := rfl
@[simp] theorem endReset_turns : (s.endReset).turns = s.turns := rfl
@[simp] theorem endReset_draws : (s.endReset).draws = s.draws := rfl
@[simp] theorem endReset_readBack : (s.endReset).readBack = s.readBack := rfl

end Sys2Proof.Machine
end

