-- ==== Sys2Proof/Laws/Ops.lean ====
section
/-! SUPPORT. What each shared operation can do, said once: the two ways a command completes, one extraction from the priority
queue, one digit, one host access, one turn of the engine, one step and one step of a run. -/

namespace Sys2Proof.Machine

/-! ## Completion -/

@[simp] theorem ok_eq_next (s t : State) : ok s = .next t ↔ t = s.finishOk := by
  simp [ok, eq_comm]

@[simp] theorem raise_eq_next (e : Error) (s t : State) : raise e s = .next t ↔ t = s.finishErr e := by
  simp [raise, eq_comm]

/-- An error writes its code, ERR, ESTICKY and BUSY and nothing else (R233). -/
theorem finishErr_eq_failedWith (e : Error) (s : State) : s.finishErr e = failedWith e.code s := rfl

/-- No error has the code 0 of a success, and none has a reserved code (R230). -/
theorem code_bounds (e : Error) : 1 ≤ e.code.toNat ∧ e.code.toNat ≤ 10 := by cases e <;> decide

/-! ## The priority queue -/

theorem keyLt_iff (a b : Key) : keyLt a b = true ↔ a.1 < b.1 ∨ a.1 = b.1 ∧ a.2 < b.2 := by
  simp [keyLt]

theorem keyLt_irrefl (a : Key) : keyLt a a = false := by
  simp [keyLt]

theorem keyLt_total {a b : Key} (h : keyLt a b = false) : a = b ∨ keyLt b a = true := by
  rw [← Bool.not_eq_true, keyLt_iff] at h
  rw [keyLt_iff]
  obtain ⟨w, i⟩ := a
  obtain ⟨v, j⟩ := b
  simp only [BitVec.lt_def, not_or, not_and, Prod.mk.injEq, BitVec.toNat_eq] at h ⊢
  omega

theorem keyLt_trans {a b c : Key} (h₁ : keyLt a b = true) (h₂ : keyLt b c = true) : keyLt a c = true := by
  rw [keyLt_iff] at *
  simp only [BitVec.lt_def, BitVec.toNat_eq] at *
  omega

theorem leastKey_mem (k : Key) (q : List Key) : leastKey k q ∈ k :: q := by
  induction q generalizing k with
  | nil => simp [leastKey]
  | cons x q ih =>
    rw [leastKey]
    rcases List.mem_cons.1 (ih (if keyLt x k then x else k)) with h | h
    · rw [h]; split <;> simp
    · simp [h]

/-- No key of the queue is below the least one (R152). -/
theorem leastKey_least (k : Key) (q : List Key) : ∀ x ∈ k :: q, keyLt x (leastKey k q) = false := by
  have step : ∀ (q : List Key) (k y : Key), (y = k ∨ keyLt k y = true) → keyLt y (leastKey k q) = false := by
    intro q
    induction q with
    | nil =>
      intro k y hy
      rcases hy with rfl | hy
      · exact keyLt_irrefl _
      · rw [leastKey]
        by_contra hc
        have := keyLt_trans hy (by simpa using hc)
        simp [keyLt_irrefl] at this
    | cons x q ih =>
      intro k y hy
      rw [leastKey]
      refine ih _ y ?_
      by_cases hx : keyLt x k = true
      · rw [if_pos hx]
        rcases hy with rfl | hy
        · exact Or.inr hx
        · exact Or.inr (keyLt_trans hx hy)
      · rw [if_neg hx]; exact hy
  induction q generalizing k with
  | nil => intro x hx; simp at hx; subst hx; exact keyLt_irrefl _
  | cons z q ih =>
    intro x hx
    rw [leastKey]
    by_cases hz : keyLt z k = true
    · rw [if_pos hz]
      rcases List.mem_cons.1 hx with rfl | hx
      · exact step q z x (Or.inr hz)
      · exact ih z x hx
    · rw [if_neg hz]
      rcases List.mem_cons.1 hx with rfl | hx
      · exact step q x x (Or.inl rfl)
      · rcases List.mem_cons.1 hx with rfl | hx
        · rcases keyLt_total (by simpa using hz) with rfl | h
          · exact step q x x (Or.inl rfl)
          · exact step q k x (Or.inr h)
        · exact ih k x (List.mem_cons_of_mem _ hx)

/-- One extraction: the key comes from the queue, none is below it, and the rest is the queue without it (R150, R152). -/
theorem popMin_eq_some {q q' : List Key} {a : Key} (h : popMin q = some (a, q')) :
    a ∈ q ∧ (∀ x ∈ q, keyLt x a = false) ∧ q' = q.erase a := by
  cases q with
  | nil => simp [popMin] at h
  | cons k q =>
    simp only [popMin, Option.some.injEq, Prod.mk.injEq] at h
    obtain ⟨rfl, rfl⟩ := h
    exact ⟨leastKey_mem k q, leastKey_least k q, rfl⟩

theorem popMin_eq_none {q : List Key} : popMin q = none ↔ q = [] := by
  cases q <;> simp [popMin]

/-! ## The decoder -/

/-- One digit does one of four things: nothing once ACC_OVF is set, sets ACC_OVF over a full accumulator, lengthens ACC, or
emits the matched symbol and empties ACC (R211, R212). -/
theorem digit_cases (s : State) (d : Bool) :
    (s.accOvf = true ∧ s.digit d = s) ∨
    (s.accOvf = false ∧ s.accLen = 255 ∧ s.digit d = s.setAcc s.acc s.accLen true) ∨
    (s.accOvf = false ∧ s.accLen ≠ 255 ∧ (s.pushDigit d).matched = none ∧ s.digit d = s.pushDigit d) ∨
    (∃ x, s.accOvf = false ∧ s.accLen ≠ 255 ∧ (s.pushDigit d).matched = some x ∧
      s.digit d = (s.setAcc [] 0 false).setSymq (s.symq ++ [x])) := by
  have hl : s.accLen.toNat = Config.maxLen ↔ s.accLen = 255 := by
    simp [Config.maxLen, BitVec.toNat_eq]
  unfold State.digit
  by_cases ho : s.accOvf = true
  · exact Or.inl ⟨ho, by simp [ho]⟩
  · have ho' : s.accOvf = false := by simpa using ho
    right
    by_cases hf : s.accLen = 255
    · exact Or.inl ⟨ho', hf, by simp [ho', hl.2 hf]⟩
    · right
      have hn : ¬ s.accLen.toNat = Config.maxLen := fun h => hf (hl.1 h)
      cases hm : (s.pushDigit d).matched with
      | none => exact Or.inl ⟨ho', hf, rfl, by simp [ho', hn]⟩
      | some x =>
        refine Or.inr ⟨x, ho', hf, rfl, ?_⟩
        simp only [ho', hn]
        rfl

@[simp] theorem digits_nil (s : State) : s.digits [] = s := rfl
@[simp] theorem digits_cons (s : State) (d : Bool) (ds : Digits) : s.digits (d :: ds) = (s.digit d).digits ds := rfl
theorem digits_append (s : State) (ds es : Digits) : s.digits (ds ++ es) = (s.digits ds).digits es :=
  List.foldl_append ..

/-! ## Turns -/

/-- An answered read hands its value to the host and nothing else (R63). -/
theorem hostAccess_read {s : State} {off : BitVec 8} {width : Nat} (h : answered off width = true) :
    s.hostAccess (.read off width) = .next (s.hostRead off) := by simp [State.hostAccess, h]

theorem hostAccess_write {s : State} {off : BitVec 8} {width : Nat} {v : Word} (h : answered off width = true) :
    s.hostAccess (.write off width v) = .next (s.hostWrite off v) := by simp [State.hostAccess, h]

/-- One host access answers, or it is a bus error (R62). -/
theorem hostAccess_cases (s : State) (a : Access) :
    (∃ off width, a = .read off width ∧ answered off width = true ∧ s.hostAccess a = .next (s.hostRead off)) ∨
    (∃ off width v, a = .write off width v ∧ answered off width = true ∧ s.hostAccess a = .next (s.hostWrite off v)) ∨
    (∃ off width, answered off width = false ∧ s.hostAccess a = .fault (.busError off width)) := by
  cases a with
  | read off width =>
    by_cases h : answered off width = true
    · exact Or.inl ⟨off, width, rfl, h, hostAccess_read h⟩
    · exact Or.inr (Or.inr ⟨off, width, by simpa using h, by simp [State.hostAccess, h]⟩)
  | write off width v =>
    by_cases h : answered off width = true
    · exact Or.inr (Or.inl ⟨off, width, v, rfl, h, hostAccess_write h⟩)
    · exact Or.inr (Or.inr ⟨off, width, by simpa using h, by simp [State.hostAccess, h]⟩)

/-- What a host write can do: one register of DATA, CMD and STATUS, or nothing (R64). -/
theorem hostWrite_cases (s : State) (off : BitVec 8) (v : Word) :
    (regAt off = .data ∧ s.hostWrite off v = s.setData v) ∨
    (regAt off = .cmd ∧ s.busy = true ∧ s.hostWrite off v = s.setOvr) ∨
    (regAt off = .cmd ∧ s.busy = false ∧ s.hostWrite off v = s.accept v) ∨
    (regAt off = .status ∧ s.hostWrite off v = s.writeStatus v) ∨
    (s.hostWrite off v = s) := by
  unfold State.hostWrite
  cases h : regAt off <;> simp
  · cases hb : s.busy <;> simp [State.writeCmd, hb]

/-- The engine's turn ends the reset sequence, completes the latched word, or finds the block idle (R131, R248, R260). -/
theorem engineTurn_cases (s : State) :
    (s.resetting = true ∧ engineTurn s = .next s.endReset) ∨
    (s.resetting = false ∧ s.busy = true ∧ engineTurn s = complete s) ∨
    (s.resetting = false ∧ s.busy = false ∧ engineTurn s = .next s) := by
  unfold engineTurn
  cases s.resetting <;> cases s.busy <;> simp

/-- A completion runs the decoded command or raises ILLEGAL_COMMAND (R131). -/
theorem complete_cases (s : State) :
    (decode s.curCmd = none ∧ complete s = raise .illegalCommand s) ∨
    (∃ i, decode s.curCmd = some i ∧ complete s = exec i s) := by
  unfold complete
  cases decode s.curCmd with
  | none => exact Or.inl ⟨rfl, rfl⟩
  | some i => exact Or.inr ⟨i, rfl, rfl⟩

/-- A step is one turn: the engine's past the end of the list, else the first of the list (R16). -/
theorem step_cases (s : State) :
    (s.turns = [] ∧ step s = engineTurn s) ∨
    (∃ ts, s.turns = .engine :: ts ∧ step s = engineTurn (s.setTurns ts)) ∨
    (∃ ts, s.turns = .reset :: ts ∧ step s = .next (s.setTurns ts).beginReset) ∨
    (∃ a ts, s.turns = .host a :: ts ∧ step s = (s.setTurns ts).hostAccess a) := by
  unfold step advance
  cases s.turns with
  | nil => exact Or.inl ⟨rfl, rfl⟩
  | cons t ts =>
    cases t with
    | engine => exact Or.inr (Or.inl ⟨ts, rfl, rfl⟩)
    | reset => exact Or.inr (Or.inr (Or.inl ⟨ts, rfl, rfl⟩))
    | host a => exact Or.inr (Or.inr (Or.inr ⟨a, ts, rfl, rfl⟩))

/-! ## Runs -/

@[simp] theorem reaches_zero (s t : State) : Reaches 0 s t ↔ s = t := by
  simp [Reaches, Host.Core.run, Sys2Proof.core]

/-- A run of one step more is a first step and the rest of the run. It is said of any machine first, since `run` does not see
through `core`. -/
theorem run_succ_eq_next (M : Host.Core) (k : Nat) (s t : M.State) :
    M.run (k + 1) s = .next t ↔ ∃ u, M.step s = .next u ∧ M.run k u = .next t := by
  rw [Host.Core.run]
  cases M.step s <;> simp

theorem reaches_succ (k : Nat) (s t : State) : Reaches (k + 1) s t ↔ ∃ u, step s = .next u ∧ Reaches k u t :=
  run_succ_eq_next Sys2Proof.core k s t

end Sys2Proof.Machine
end

