-- ==== Sys2Proof/Laws/PerInstr.lean ====
section
/-! SUPPORT. Statements about every command as syntax, one lemma per constructor. -/

namespace Sys2Proof

/-- The opcode of a command (30_encoding.md R106). -/
def opcode : Instr → BitVec 8
  | .nop => 0x00
  | .sreset => 0x01
  | .clrfreq => 0x02
  | .incfreq _ => 0x03
  | .setfreq _ => 0x04
  | .rdfreq _ => 0x05
  | .build => 0x06
  | .rdnode _ => 0x07
  | .derive => 0x08
  | .clrct => 0x09
  | .wrctl _ => 0x0A
  | .wrctw _ _ => 0x0B
  | .rdctl _ => 0x0C
  | .rdctw _ _ => 0x0D
  | .enc _ => 0x0E
  | .rdout _ => 0x0F
  | .clrout => 0x10
  | .dec _ => 0x11
  | .decend => 0x12
  | .popsym => 0x13
  | .decrst => 0x14

end Sys2Proof

namespace Sys2Proof.Laws.OpcodeField

/-- The word of a command holds its opcode in bits 31:24 (R101). -/
def Statement (i : Instr) : Prop := (encode i).extractLsb' 24 8 = opcode i

theorem encodeS_opcode (o : BitVec 8) (p : Word) (h : p.extractLsb' 24 8 = o) (s : Sym) :
    (encodeS p s).extractLsb' 24 8 = o := by
  subst h
  ext j hj
  simp only [encodeS, BitVec.getElem_extractLsb', BitVec.getLsbD_or, BitVec.getLsbD_setWidth]
  have : s.getLsbD (24 + j) = false := BitVec.getLsbD_of_ge _ _ (by omega)
  simp [this]

theorem encodeSW_opcode (o : BitVec 8) (p : Word) (h : p.extractLsb' 24 8 = o) (s : Sym) (w : BitVec 3) :
    (encodeSW p s w).extractLsb' 24 8 = o := by
  subst h
  ext j hj
  simp only [encodeSW, BitVec.getElem_extractLsb', BitVec.getLsbD_or, BitVec.getLsbD_setWidth,
    BitVec.getLsbD_shiftLeft]
  have h₁ : s.getLsbD (24 + j) = false := BitVec.getLsbD_of_ge _ _ (by omega)
  have h₂ : w.getLsbD (24 + j - 8) = false := BitVec.getLsbD_of_ge _ _ (by omega)
  simp [h₁, h₂]

theorem encodeNI_opcode (o : BitVec 8) (p : Word) (h : p.extractLsb' 24 8 = o) (k : NodeIx) :
    (encodeNI p k).extractLsb' 24 8 = o := by
  subst h
  ext j hj
  simp only [encodeNI, BitVec.getElem_extractLsb', BitVec.getLsbD_or, BitVec.getLsbD_setWidth]
  have : k.getLsbD (24 + j) = false := BitVec.getLsbD_of_ge _ _ (by omega)
  simp [this]

theorem encodeC_opcode (o : BitVec 8) (p : Word) (h : p.extractLsb' 24 8 = o) (n : Nat) :
    (encodeC p n).extractLsb' 24 8 = o := by
  subst h
  ext j hj
  simp only [encodeC, BitVec.getElem_extractLsb', BitVec.getLsbD_or, BitVec.getLsbD_setWidth]
  have : (BitVec.ofNat 5 (n - 1)).getLsbD (24 + j) = false := BitVec.getLsbD_of_ge _ _ (by omega)
  simp [this]

theorem nop : Statement .nop := by unfold Statement; decide
theorem sreset : Statement .sreset := by unfold Statement; decide
theorem clrfreq : Statement .clrfreq := by unfold Statement; decide
theorem incfreq (s : Sym) : Statement (.incfreq s) := encodeS_opcode 0x03 _ (by decide) s
theorem setfreq (s : Sym) : Statement (.setfreq s) := encodeS_opcode 0x04 _ (by decide) s
theorem rdfreq (s : Sym) : Statement (.rdfreq s) := encodeS_opcode 0x05 _ (by decide) s
theorem build : Statement .build := by unfold Statement; decide
theorem rdnode (i : NodeIx) : Statement (.rdnode i) := encodeNI_opcode 0x07 _ (by decide) i
theorem derive : Statement .derive := by unfold Statement; decide
theorem clrct : Statement .clrct := by unfold Statement; decide
theorem wrctl (s : Sym) : Statement (.wrctl s) := encodeS_opcode 0x0A _ (by decide) s
theorem wrctw (s : Sym) (w : BitVec 3) : Statement (.wrctw s w) := encodeSW_opcode 0x0B _ (by decide) s w
theorem rdctl (s : Sym) : Statement (.rdctl s) := encodeS_opcode 0x0C _ (by decide) s
theorem rdctw (s : Sym) (w : BitVec 3) : Statement (.rdctw s w) := encodeSW_opcode 0x0D _ (by decide) s w
theorem enc (s : Sym) : Statement (.enc s) := encodeS_opcode 0x0E _ (by decide) s
theorem rdout (n : Nat) : Statement (.rdout n) := encodeC_opcode 0x0F _ (by decide) n
theorem clrout : Statement .clrout := by unfold Statement; decide
theorem dec (n : Nat) : Statement (.dec n) := encodeC_opcode 0x11 _ (by decide) n
theorem decend : Statement .decend := by unfold Statement; decide
theorem popsym : Statement .popsym := by unfold Statement; decide
theorem decrst : Statement .decrst := by unfold Statement; decide

end Sys2Proof.Laws.OpcodeField
end

