-- ==== Sys2Proof/Laws/Tree.lean ====
section
/-! SUPPORT. One turn of BUILD's merge loop, one node of DERIVE's walk, and the leaves BUILD starts from. -/

namespace Sys2Proof.Machine

/-- One turn of the merge loop: it stops at a queue of fewer than two nodes, else it merges the two least keys, the first popped
to the left, under the next free index (R150 to R153). -/
theorem mergeLoop_succ_cases (fuel : Nat) (ns : List Node) (q : List Key) :
    (q.length < 2 ∧ mergeLoop (fuel + 1) ns q = (ns, q)) ∨
    (∃ a b q₁ q₂, popMin q = some (a, q₁) ∧ popMin q₁ = some (b, q₂) ∧
      mergeLoop (fuel + 1) ns q =
        mergeLoop fuel (ns ++ [.internal (a.1 + b.1) a.2 b.2])
          (q₂ ++ [(a.1 + b.1, BitVec.ofNat 9 ns.length)])) := by
  cases h₁ : popMin q with
  | none =>
    have := popMin_eq_none.1 h₁
    subst this
    exact Or.inl ⟨by simp, by simp [mergeLoop, popMin]⟩
  | some p =>
    obtain ⟨a, q₁⟩ := p
    cases h₂ : popMin q₁ with
    | none =>
      obtain ⟨ha, -, he⟩ := popMin_eq_some h₁
      have h0 := popMin_eq_none.1 h₂
      have hl : (q.erase a).length = q.length - 1 := List.length_erase_of_mem ha
      rw [← he, h0, List.length_nil] at hl
      exact Or.inl ⟨by omega, by simp [mergeLoop, h₁, h₂]⟩
    | some p =>
      obtain ⟨b, q₂⟩ := p
      exact Or.inr ⟨a, b, q₁, q₂, rfl, h₂, by simp [mergeLoop, h₁, h₂]⟩

/-- An extraction takes one node out of the queue. -/
theorem length_of_popMin {q q' : List Key} {a : Key} (h : popMin q = some (a, q')) : q'.length + 1 = q.length := by
  obtain ⟨ha, -, rfl⟩ := popMin_eq_some h
  have := List.length_erase_of_mem ha
  have := List.length_pos_of_mem ha
  omega

/-- The walk at a leaf ends with the digits gathered (R170). -/
theorem walk_leaf {s : State} {i : NodeIx} {x : Sym} {w : Weight} (h : s.nodeAt i = .leaf x w) (fuel : Nat) (p : Digits) :
    s.walk (fuel + 1) i p = [(x, p)] := by
  simp [State.walk, h]

/-- The walk at an internal node goes left with 0 and right with 1 (R170). -/
theorem walk_internal {s : State} {i l r : NodeIx} {w : Weight} (h : s.nodeAt i = .internal w l r) (fuel : Nat)
    (p : Digits) : s.walk (fuel + 1) i p = s.walk fuel l (p ++ [false]) ++ s.walk fuel r (p ++ [true]) := by
  simp [State.walk, h]

/-- In canonical form the leaves are one per symbol with a count, each with its count (R150, R151). -/
theorem mem_leaves_iff (s : State) (h : Memory.wf 0 s.freq) (n : Node) :
    n ∈ s.leaves ↔ ∃ x, s.freqAt x ≠ 0 ∧ n = .leaf x ((s.freqAt x).setWidth 32) := by
  simp only [State.leaves, List.mem_map]
  constructor
  · rintro ⟨c, hc, rfl⟩
    obtain ⟨hg, hne⟩ := (mem_freq_iff s h c).1 hc
    exact ⟨c.1, by rw [hg]; exact hne, by rw [hg]⟩
  · rintro ⟨x, hx, rfl⟩
    exact ⟨(x, s.freqAt x), (mem_freq_iff s h _).2 ⟨rfl, hx⟩, rfl⟩

end Sys2Proof.Machine
end

