-- ==== Sys2Proof/Laws/Words.lean ====
section
/-! SUPPORT. Digits in words: what a packed word holds, what an entry made from a code word holds, and the bits of STATUS; and an
operand in its field as the number it stands for. -/

namespace Sys2Proof.Machine

/-! ## Operands in fields -/

/-- A number that fits its field of k bits, put into the field and zero-extended to the word, is the number (R103, R112). -/
theorem ofNat_setWidth_of_lt {x k : Nat} (h : x < 2 ^ k) (hk : k ≤ 32) :
    (BitVec.ofNat k x).setWidth 32 = BitVec.ofNat 32 x := by
  have : 2 ^ k ≤ 2 ^ 32 := Nat.pow_le_pow_right (by decide) hk
  apply BitVec.eq_of_toNat_eq
  simp only [BitVec.toNat_setWidth, BitVec.toNat_ofNat]
  rw [Nat.mod_eq_of_lt h]

/-! ## Packed words -/

theorem wordDigit_shifted_msb {k j : Nat} (hj : j < 32) :
    (0x80000000#32 >>> k).getLsbD (31 - j) = decide (j = k) := by
  have h0 : (0x80000000#32) = BitVec.twoPow 32 31 := by decide
  have e : 31 = k + (31 - j) ↔ j = k := by omega
  rw [h0, BitVec.getLsbD_ushiftRight, BitVec.getLsbD_twoPow]
  simp [e]

theorem wordDigit_packFrom (ds : Digits) : ∀ {k j : Nat}, j < 32 →
    wordDigit (packFrom k ds) j = (decide (k ≤ j) && ds.getD (j - k) false) := by
  induction ds with
  | nil => intro k j _; simp [packFrom, wordDigit]
  | cons d ds ih =>
    intro k j hj
    have hi := ih (k := k + 1) hj
    unfold wordDigit at hi ⊢
    rw [packFrom, BitVec.getLsbD_or, hi]
    have hd : (if d then 0x80000000#32 >>> k else 0).getLsbD (31 - j) = (d && decide (j = k)) := by
      cases d
      · simp
      · simpa using wordDigit_shifted_msb hj
    rw [hd]
    rcases Nat.lt_trichotomy j k with h | h | h
    · have h₁ : ¬ k + 1 ≤ j := by omega
      have h₂ : ¬ k ≤ j := by omega
      have h₃ : j ≠ k := by omega
      simp [h₁, h₂, h₃]
    · subst h; simp
    · obtain ⟨i, rfl⟩ : ∃ i, j = k + 1 + i := ⟨j - k - 1, by omega⟩
      have h₁ : k + 1 + i ≠ k := by omega
      have h₂ : k ≤ k + 1 + i := by omega
      have h₃ : k + 1 + i - k = i + 1 := by omega
      have h₄ : k + 1 + i - (k + 1) = i := by omega
      simp [h₁, h₂, h₃, h₄]

/-- Digit j of a packed word is digit j of the sequence, 0 past its end (R66). -/
theorem wordDigit_packWord (ds : Digits) {j : Nat} (hj : j < 32) : wordDigit (packWord ds) j = ds.getD j false := by
  simpa [packWord] using wordDigit_packFrom ds (k := 0) hj

/-! ## Entries -/

/-- Digit j of an entry made from the code word `p` is digit j of `p`, 0 past its end (R45, R170). -/
theorem entryDigit_entryOfCode (p : Digits) {j : Nat} (hj : j < 256) :
    entryDigit (entryOfCode p) j = p.getD j false := by
  have hk : j / 32 < 8 := by omega
  have hw : (entryOfCode p).words.toList.getD (j / 32) 0 = packWord ((p.drop (32 * (j / 32))).take 32) := by
    simp [entryOfCode, List.getD_eq_getElem?_getD, hk]
  have hm : j % 32 < 32 := Nat.mod_lt _ (by decide)
  rw [entryDigit, hw, wordDigit_packWord _ hm]
  simp only [List.getD_eq_getElem?_getD, List.getElem?_take, List.getElem?_drop, hm, if_true]
  rw [Nat.div_add_mod]

/-- An entry made from a code word of 1 to 255 digits holds exactly that code word (R44, R170). -/
theorem entryCode_entryOfCode (p : Digits) (h : p.length ≤ 255) : entryCode (entryOfCode p) = p := by
  have hl : (entryOfCode p).len.toNat = p.length := by
    simp [entryOfCode]; omega
  refine List.ext_getElem (by simp [entryCode, hl]) fun j h₁ h₂ => ?_
  have hj : j < p.length := h₂
  simp [entryCode, entryDigit_entryOfCode p (show j < 256 by omega), List.getD_eq_getElem?_getD, hj]

@[simp] theorem length_entryCode (e : CtEntry) : (entryCode e).length = e.len.toNat := by simp [entryCode]

@[simp] theorem length_dataDigits (s : State) (n : Nat) : (s.dataDigits n).length = n := by simp [State.dataDigits]

/-! ## STATUS, whatever its views read as (R29) -/

variable (s : State) (v : BitVec 3)

theorem statusWith_busy : (s.statusWith v).getLsbD 0 = s.busy := by
  simp only [State.statusWith, BitVec.getLsbD_append]; simp
theorem statusWith_err : (s.statusWith v).getLsbD 1 = s.err := by
  simp only [State.statusWith, BitVec.getLsbD_append]; simp
theorem statusWith_esticky : (s.statusWith v).getLsbD 2 = s.esticky := by
  simp only [State.statusWith, BitVec.getLsbD_append]; simp
theorem statusWith_ovr : (s.statusWith v).getLsbD 3 = s.ovr := by
  simp only [State.statusWith, BitVec.getLsbD_append]; simp
theorem statusWith_ecode {j : Nat} (h : j < 4) : (s.statusWith v).getLsbD (4 + j) = s.ecode.getLsbD j := by
  have h₁ : ¬ 4 + j < 1 := by omega
  have h₂ : ¬ 4 + j - 1 < 1 := by omega
  have h₃ : ¬ 4 + j - 1 - 1 < 1 := by omega
  have h₄ : ¬ 4 + j - 1 - 1 - 1 < 1 := by omega
  have h₅ : 4 + j - 1 - 1 - 1 - 1 < 4 := by omega
  have h₆ : 4 + j - 1 - 1 - 1 - 1 = j := by omega
  simp only [State.statusWith, BitVec.getLsbD_append, h₁, h₂, h₃, h₄, h₆, if_false]
  simp [h]
theorem statusWith_views {j : Nat} (h : j < 3) : (s.statusWith v).getLsbD (8 + j) = v.getLsbD j := by
  have h₁ : ¬ 8 + j < 1 := by omega
  have h₂ : ¬ 8 + j - 1 < 1 := by omega
  have h₃ : ¬ 8 + j - 1 - 1 < 1 := by omega
  have h₄ : ¬ 8 + j - 1 - 1 - 1 < 1 := by omega
  have h₅ : ¬ 8 + j - 1 - 1 - 1 - 1 < 4 := by omega
  have h₆ : 8 + j - 1 - 1 - 1 - 1 - 4 = j := by omega
  simp only [State.statusWith, BitVec.getLsbD_append, h₁, h₂, h₃, h₄, h₅, h₆, if_false]
  simp [h]

end Sys2Proof.Machine
end

