-- ==== Sys2Proof/Tests/Slice0.lean ====
section
/-! SUPPORT. The model's own tests. Expected values come from the spec: 95_test_vectors.md (vectors T1 to T9), 30_encoding.md (R115) and
the worked tables of 42_tree.md to 45_decoder.md. The second part meets the hypotheses of every obligation that has any. -/

namespace Sys2Proof.Machine.Tests

/-! ## Helpers -/

/-- The answer is a next state with the property `p`. -/
def nextHas (r : Result) (p : State → Bool) : Bool :=
  match r with
  | .next t => p t
  | .fault _ => false
  | .refused _ => false

/-- The next state, the reset state where there is none. -/
def nextOf (r : Result) : State :=
  match r with
  | .next t => t
  | .fault _ => State.reset
  | .refused _ => State.reset

/-- The reset state with DATA and CUR_DATA given. -/
def withOperand (v : Word) : State := { State.reset with data := v, curData := v }

/-- The counts of "aaaabbbccd". -/
def countsAbcd : State :=
  { State.reset with freq := [(0x61#8, 4#24), (0x62#8, 3#24), (0x63#8, 2#24), (0x64#8, 1#24)] }

/-- The counts of "abbcccddddeeeee". -/
def countsAbcde : State :=
  { State.reset with freq := [(0x61#8, 1#24), (0x62#8, 2#24), (0x63#8, 3#24), (0x64#8, 4#24), (0x65#8, 5#24)] }

/-- A code-table entry of one word. -/
def entry (l : BitVec 8) (w : Word) : CtEntry := { len := l, words := #v[w, 0, 0, 0, 0, 0, 0, 0] }

/-- The tree of "aaaabbbccd" as vector T5.2 lists it. -/
def treeAbcd : State :=
  { countsAbcd with
    node := [.leaf 0x61#8 4#32, .leaf 0x62#8 3#32, .leaf 0x63#8 2#32, .leaf 0x64#8 1#32, .internal 3#32 3#9 2#9,
      .internal 6#32 1#9 4#9, .internal 10#32 0#9 5#9]
    treeValid := true
    nodeCount := 7
    root := 6 }

/-- The table of "aaaabbbccd" as vector T6.2 lists it. -/
def tableAbcd : State :=
  { treeAbcd with
    ct := [(0x61#8, entry 1 0x00000000#32), (0x62#8, entry 2 0x80000000#32), (0x63#8, entry 3 0xE0000000#32),
      (0x64#8, entry 3 0xC0000000#32)] }

/-- A tree of one leaf (vector T5.3). -/
def treeLone : State :=
  { State.reset with node := [.leaf 0x61#8 4#32], treeValid := true, nodeCount := 1, root := 0 }

/-! ## Well-formedness: each check refuses an ill-formed term -/

theorem test_wf_refuses_rdout_0 : (Instr.rdout 0).wf = false := by decide
theorem test_wf_refuses_rdout_33 : (Instr.rdout 33).wf = false := by decide
theorem test_wf_refuses_dec_0 : (Instr.dec 0).wf = false := by decide
theorem test_wf_refuses_dec_33 : (Instr.dec 33).wf = false := by decide
theorem test_wf_takes_counts_1_and_32 :
    (Instr.rdout 1).wf = true ∧ (Instr.rdout 32).wf = true ∧ (Instr.dec 1).wf = true ∧ (Instr.dec 32).wf = true := by decide
theorem test_assembler_refuses_out_of_range :
    assemble .INCFREQ [256] = none ∧ assemble .WRCTW [0, 8] = none ∧ assemble .RDNODE [512] = none ∧
      assemble .RDOUT [0] = none ∧ assemble .DEC [33] = none ∧ assemble .NOP [0] = none := by decide
theorem test_assembler_takes_the_largest_operands :
    assemble .INCFREQ [255] = some (.incfreq 255#8) ∧ assemble .WRCTW [255, 7] = some (.wrctw 255#8 7#3) ∧
      assemble .RDNODE [511] = some (.rdnode 511#9) ∧ assemble .DEC [32] = some (.dec 32) := by decide

/-! ## Decoding: every constructor by a word written out from R102 and R106 -/

theorem test_decode_control : decode 0x00000000#32 = some .nop ∧ decode 0x01000000#32 = some .sreset := by decide
theorem test_decode_freq :
    decode 0x02000000#32 = some .clrfreq ∧ decode 0x03000061#32 = some (.incfreq 0x61#8) ∧
      decode 0x040000FF#32 = some (.setfreq 0xFF#8) ∧ decode 0x05000065#32 = some (.rdfreq 0x65#8) := by decide
theorem test_decode_tree :
    decode 0x06000000#32 = some .build ∧ decode 0x070001FE#32 = some (.rdnode 510#9) ∧
      decode 0x070001FF#32 = some (.rdnode 511#9) := by decide
theorem test_decode_table :
    decode 0x08000000#32 = some .derive ∧ decode 0x09000000#32 = some .clrct ∧
      decode 0x0A000041#32 = some (.wrctl 0x41#8) ∧ decode 0x0B000761#32 = some (.wrctw 0x61#8 7#3) ∧
      decode 0x0C000061#32 = some (.rdctl 0x61#8) ∧ decode 0x0D000541#32 = some (.rdctw 0x41#8 5#3) := by decide
theorem test_decode_encoder :
    decode 0x0E000064#32 = some (.enc 0x64#8) ∧ decode 0x0F00001F#32 = some (.rdout 32) ∧
      decode 0x10000000#32 = some .clrout := by decide
theorem test_decode_decoder :
    decode 0x11000012#32 = some (.dec 19) ∧ decode 0x12000000#32 = some .decend ∧
      decode 0x13000000#32 = some .popsym ∧ decode 0x14000000#32 = some .decrst := by decide
/-- Vectors T2.1 to T2.9. -/
theorem test_decode_illegal :
    [0x15000000#32, 0xFF000000#32, 0x00000001#32, 0x06000100#32, 0x0F000020#32, 0x07000200#32, 0x0B000800#32,
      0x0E000100#32, 0x14800000#32].all (fun w => decode w == none) = true := by decide
/-- The rows are disjoint (R106). -/
theorem test_rows_disjoint :
    opRows.Pairwise fun a b => a.mask &&& b.mask &&& (a.pattern ^^^ b.pattern) ≠ 0 := by decide
theorem test_decodeTableWord : decodeTableWord 32 0x0D000761 = some (.rdctw 0x61#8 7#3) := by decide

/-! ## The host's accesses (vectors T1 and T3) -/

/-- Vectors T1.1 to T1.5 and T1.11. -/
theorem test_read_reset :
    [(0x00#8, 0x48554601#32), (0x04#8, 0x20FF1808#32), (0x08#8, 0x01FF0400#32), (0x0C#8, 0#32), (0x2C#8, 0#32),
      (0xFC#8, 0#32), (0x14#8, 0#32), (0x18#8, 0#32), (0x24#8, 0#32), (0x28#8, 0#32)].all (fun p =>
    nextHas (step { State.reset with turns := [.host (.read p.1 4)] }) fun t => t.readBack == [p.2]) = true := by decide
/-- Vectors T1.6 and T1.7. -/
theorem test_write_data :
    nextHas (step { State.reset with turns := [.host (.write 0x10 4 0x12345678#32)] })
      fun t => t.data == 0x12345678#32 := by decide
/-- Vectors T1.8 to T1.10. -/
theorem test_bus_errors :
    [Access.read 0x18 1, .write 0x12 4 0xFFFFFFFF#32, .write 0x14 2 0#32].all (fun a =>
      match step { State.reset with turns := [.host a] } with
      | .fault (.busError _ _) => true
      | _ => false) = true := by decide
/-- Vectors T1.12 and T1.13. -/
theorem test_status_w1c :
    (({ State.reset with esticky := true, ovr := true } : State).writeStatus 0x00000004#32).status = 0x00000008#32 ∧
    (({ State.reset with esticky := true, ovr := true } : State).writeStatus 0xFFFFFFF3#32).status = 0x0000000C#32 := by
  decide
/-- Vector T3.5: BUILD, then a CMD write before it completes. -/
theorem test_dropped_command :
    nextHas (Host.Core.run Sys2Proof.core 3
        { State.reset with turns := [wr .cmd 0x06000000#32, wr .cmd 0x00000000#32, .engine] })
      fun t => t.status == 0x0000001E#32 := by decide
/-- Vector T3.6: while BUSY = 1 bits 7:0 of STATUS are defined, and the read takes one draw. -/
theorem test_status_low_byte_while_busy :
    let s : State := { State.reset with busy := true, err := true, ecode := 2, esticky := true }
    ((s.readReg .status).getLsbD 0 = true ∧ (s.readReg .status).getLsbD 1 = true ∧ (s.readReg .status).getLsbD 2 = true ∧
      (s.readReg .status).getLsbD 3 = false) ∧
    nextHas (step { s with turns := [rd .status] }) (fun t => t.draws == 1) = true := by
  exact ⟨⟨statusWith_busy _ _, statusWith_err _ _, statusWith_esticky _ _, statusWith_ovr _ _⟩, by decide⟩
/-- R260: reset asserted, then the end of the sequence. -/
theorem test_reset_sequence :
    nextHas (step { withOperand 7 with turns := [.reset, .engine] }) (fun t => t.busy && t.data == 7) = true ∧
    nextHas (Host.Core.run Sys2Proof.core 2 { withOperand 7 with turns := [.reset, .engine] })
      (fun t => t == State.reset) = true := by decide

/-! ## One step runs one command -/

theorem test_withFetchWord_runs :
    nextHas (step (State.reset.withFetchWord 32 0x0E000061)) (fun t => t.status == 0x00000026#32) = true := by decide
/-- Vector T2.1. -/
theorem test_illegal_word :
    nextHas (step (State.reset.withFetchWord 32 0x15000000)) (fun t => t.status == 0x00000046#32) = true := by decide

/-! ## Commands -/

/-- Vector T3.2. -/
theorem test_nop :
    nextHas (exec .nop { State.reset with ecode := 2, err := true, esticky := true, busy := true })
      (fun t => t.status == 0x00000004#32) = true := by decide
/-- Vectors T3.3 and T3.4, and the latches of R50. -/
theorem test_sreset :
    nextHas (exec .sreset { tableAbcd with data := 7, ovr := true, curCmd := 0x01000000#32, curData := 7 })
      (fun t => t.curCmd == 0 && t.curData == 0 && t.status == 0x00000008#32 && t.data == 7 && t.levels == 0 && t.tree == 0 && t.ct == []) = true := by decide
theorem test_clrfreq : nextHas (exec .clrfreq tableAbcd) (fun t => t.freq == [] && t.tree == tableAbcd.tree) = true := by decide
/-- Vector T4.1. -/
theorem test_incfreq : nextHas (exec (.incfreq 0x61#8) State.reset) (fun t => t.freqAt 0x61#8 == 1) = true := by decide
/-- Vector T4.4. -/
theorem test_incfreq_overflow :
    nextHas (exec (.incfreq 0x61#8) { State.reset with freq := [(0x61#8, 0xFFFFFF#24)] })
      (fun t => t.status == 0x00000056#32 && t.freqAt 0x61#8 == 0xFFFFFF#24) = true := by decide
/-- Vector T4.3. -/
theorem test_setfreq :
    nextHas (exec (.setfreq 0x61#8) (withOperand 0x00FFFFFF#32)) (fun t => t.freqAt 0x61#8 == 0xFFFFFF#24) = true := by decide
/-- Vector T4.5. -/
theorem test_setfreq_range :
    nextHas (exec (.setfreq 0x61#8) { countsAbcd with curData := 0x01000000#32 })
      (fun t => t.status == 0x00000066#32 && t.freqAt 0x61#8 == 4) = true := by decide
/-- Vector T4.2. -/
theorem test_rdfreq : nextHas (exec (.rdfreq 0x65#8) countsAbcde) (fun t => t.result0 == 5 && t.result1 == 0) = true := by decide
/-- Vector T5.1. -/
theorem test_build :
    nextHas (exec .build countsAbcde) (fun t => t.tree == 0x00080009#32 && t.node ==
      [.leaf 0x61#8 1#32, .leaf 0x62#8 2#32, .leaf 0x63#8 3#32, .leaf 0x64#8 4#32, .leaf 0x65#8 5#32,
       .internal 3#32 0#9 1#9, .internal 6#32 2#9 5#9, .internal 9#32 3#9 4#9, .internal 15#32 6#9 7#9]) = true := by decide
/-- Vectors T5.2 and T5.9. -/
theorem test_build_tie_and_empty :
    nextHas (exec .build countsAbcd) (fun t => t.node == treeAbcd.node && t.tree == 0x00060007#32) = true ∧
    nextHas (exec .build { treeAbcd with freq := [] })
      (fun t => t.status == 0x00000116#32 && t.tree == 0x00060007#32) = true := by decide
/-- Vector T5.2, nodes 4 and 6. -/
theorem test_rdnode :
    nextHas (exec (.rdnode 4#9) treeAbcd) (fun t => t.result0 == 3 && t.result1 == 0x00020003#32) = true ∧
    nextHas (exec (.rdnode 6#9) treeAbcd) (fun t => t.result0 == 10 && t.result1 == 0x40050000#32) = true := by decide
/-- Vectors T5.10 and T5.11 (with 7 nodes). -/
theorem test_rdnode_errors :
    nextHas (exec (.rdnode 0#9) State.reset) (fun t => t.status == 0x00000076#32) = true ∧
    nextHas (exec (.rdnode 7#9) treeAbcd) (fun t => t.status == 0x00000186#32) = true := by decide
/-- Vector T6.2. -/
theorem test_derive : nextHas (exec .derive treeAbcd) (fun t => t.ct == tableAbcd.ct) = true := by decide
/-- Vectors T6.3 and T6.7. -/
theorem test_derive_lone_and_none :
    nextHas (exec .derive treeLone) (fun t => t.ct == [(0x61#8, entry 1 0)]) = true ∧
    nextHas (exec .derive State.reset) (fun t => t.status == 0x00000076#32) = true := by decide
theorem test_clrct : nextHas (exec .clrct tableAbcd) (fun t => t.ct == [] && t.tree == tableAbcd.tree) = true := by decide
/-- Vector T6.11. -/
theorem test_wrctl :
    nextHas (exec (.wrctl 0x41#8) { withOperand 3 with ct := [(0x41#8, entry 0 0xA0000000#32)] })
      (fun t => t.codeOf 0x41#8 == [true, false, true]) = true := by decide
/-- Vector T6.12. -/
theorem test_wrctl_range :
    nextHas (exec (.wrctl 0x41#8) (withOperand 0x100#32)) (fun t => t.ecode == 6 && t.ct == []) = true := by decide
/-- Vector T6.14. -/
theorem test_wrctw :
    nextHas (exec (.wrctw 0x41#8 7#3) (withOperand 0xFFFFFFFF#32))
      (fun t => t.ctWord 0x41#8 7#3 == 0xFFFFFFFF#32 && t.ctWord 0x41#8 6#3 == 0 && (t.ctAt 0x41#8).len == 0) = true := by decide
/-- The example of R178. -/
theorem test_rdctl : nextHas (exec (.rdctl 0x63#8) tableAbcd) (fun t => t.result0 == 3 && t.result1 == 0) = true := by decide
/-- Vector T6.9. -/
theorem test_rdctw : nextHas (exec (.rdctw 0x63#8 0#3) tableAbcd) (fun t => t.result0 == 0xE0000000#32) = true := by decide
/-- Vector T7.1. -/
theorem test_enc :
    nextHas (exec (.enc 0x63#8) tableAbcd) (fun t => t.outq == [true, true, true] && t.levels == 3) = true := by decide
/-- Vectors T7.8 and T7.10, on a queue with two free bits. -/
theorem test_enc_errors :
    nextHas (exec (.enc 0x7A#8) tableAbcd) (fun t => t.status == 0x00000126#32) = true ∧
    nextHas (exec (.enc 0x63#8) { tableAbcd with outq := List.replicate 1022 true }) (fun t => t.ecode == 9) = true := by
  decide +kernel
/-- Vector T7.3, the first two reads. -/
theorem test_rdout :
    nextHas (exec (.rdout 4) { State.reset with outq := [false, false, false, false, true, false, true] })
      (fun t => t.result0 == 0 && t.result1 == 4 && t.outq == [true, false, true]) = true ∧
    nextHas (exec (.rdout 7) { State.reset with outq := [true, false, true, false, true, false, true, true] })
      (fun t => t.result0 == 0xAA000000#32 && t.result1 == 7 && t.outq == [true]) = true := by decide
theorem test_clrout :
    nextHas (exec .clrout { State.reset with outq := [true], result0 := 5 }) (fun t => t.outq == [] && t.result0 == 5) = true := by
  decide
/-- Vector T8.1. -/
theorem test_dec :
    nextHas (exec (.dec 19) { tableAbcd with curData := 0x0ABFC000#32 })
      (fun t => t.symq == [0x61#8, 0x61#8, 0x61#8, 0x61#8, 0x62#8, 0x62#8, 0x62#8, 0x63#8, 0x63#8, 0x64#8] &&
        t.levels == 0x000A0000#32) = true := by decide +kernel
/-- Program P5: two symbols share one code word, and the lower one wins. -/
theorem test_dec_lowest_symbol :
    nextHas (exec (.dec 3) { withOperand 0x80000000#32 with
        ct := [(0x78#8, entry 1 0x80000000#32), (0x79#8, entry 1 0x80000000#32), (0x7A#8, entry 2 0)] })
      (fun t => t.symq == [0x78#8, 0x7A#8]) = true := by decide
/-- Vectors T8.6 and T8.11. -/
theorem test_decend :
    nextHas (exec .decend { tableAbcd with acc := [true], accLen := 1, symq := [0x61#8] })
      (fun t => t.status == 0x00000336#32 && t.levels == 0x01010000#32) = true ∧
    nextHas (exec .decend State.reset) (fun t => t.status == 0) = true := by decide
/-- Vectors T8.4 and T8.5. -/
theorem test_popsym :
    nextHas (exec .popsym { State.reset with symq := [0x61#8, 0x62#8] })
      (fun t => t.result0 == 0x00000161#32 && t.result1 == 1 && t.symq == [0x62#8]) = true ∧
    nextHas (exec .popsym State.reset) (fun t => t.result0 == 0 && t.result1 == 0) = true := by decide
/-- Vector T8.7. -/
theorem test_decrst :
    nextHas (exec .decrst { tableAbcd with acc := [true], accLen := 1, symq := [0x61#8], esticky := true })
      (fun t => t.levels == 0 && t.status == 0x00000104#32) = true := by decide
/-- Vector T8.8, the digit that sets ACC_OVF. -/
theorem test_digit_overflow :
    (({ State.reset with acc := List.replicate 255 true, accLen := 255 } : State).digit true).status = 0x00000600#32 := by
  decide +kernel

/-! ## Witnesses: the hypotheses of the obligations can be met -/

theorem witness_EncodeThenDecode : (Instr.rdout 1).wf = true ∧ (Instr.dec 32).wf = true := by decide
theorem witness_DecodeThenEncode : decode 0x0B0007FF#32 = some (.wrctw 0xFF#8 7#3) := by decide
theorem witness_ReservedOpcodesAreIllegal :
    0x15 ≤ ((0x15000000#32).extractLsb' 24 8).toNat ∧ 0x15 ≤ ((0xFFFFFFFF#32).extractLsb' 24 8).toNat := by decide
/-- Each operand at the ends of its range and just beyond, and an operand list of the wrong length. -/
theorem witness_AssemblerIsSound :
    assemble .RDCTW [255, 7] = some (.rdctw 255#8 7#3) ∧ encode (.rdctw 255#8 7#3) = 0x0D0007FF#32 ∧
      assemble .RDCTW [256, 7] = none ∧ assemble .RDCTW [255, 8] = none ∧ assemble .RDNODE [511] = some (.rdnode 511#9) ∧
      assemble .DEC [1] = some (.dec 1) ∧ assemble .RDOUT [33] = none ∧ assemble .BUILD [] = some .build ∧
      [0].length ≠ 0 ∧ assemble .BUILD [0] = none ∧ [0, 0].length ≠ 1 ∧ assemble .ENC [0, 0] = none := by decide

/-- A busy state whose latched word is `w`, the engine next. -/
def latched (w : Word) : State := { State.reset with busy := true, curCmd := w, turns := [.engine] }

theorem witness_StepRunsDecodedCommand :
    (latched 0x06000000#32).busy = true ∧ (latched 0x06000000#32).resetting = false ∧
      decode (latched 0x06000000#32).curCmd = some .build ∧ (latched 0x06000000#32).turns = .engine :: [] ∧
      ({ latched 0x06000000#32 with turns := [] } : State).turns = [] := by decide
theorem witness_IllegalWordRaisesIllegalCommand :
    let s : State := { State.reset with turns := [.host (.write 0x14 4 0x15000000#32), .engine] }
    let u : State := { State.reset with turns := [.host (.write 0x14 4 0x03000100#32), .engine] }
    (0x15 ≤ (0x15000000#32).toNat / 2 ^ 24 ∧ s.busy = false ∧ s.resetting = false ∧
      s.turns = .host (.write 0x14 4 0x15000000#32) :: .engine :: []) ∧
    ((0x03, 8) ∈ formatRows ∧ (0x03000100#32).toNat / 2 ^ 24 = 0x03 ∧ 2 ^ 8 ≤ (0x03000100#32).toNat % 2 ^ 24 ∧
      u.turns = .host (.write 0x14 4 0x03000100#32) :: .engine :: []) := by decide
theorem witness_CommandAcceptance :
    let s : State := { State.reset with turns := [.host (.write 0x14 4 0#32)] }
    let u : State := { State.reset with turns := [.host (.write 0x14 4 0#32)], busy := true }
    s.turns = .host (.write 0x14 4 0#32) :: [] ∧ s.busy = false ∧ u.turns = s.turns ∧ u.busy = true := by decide
theorem witness_FailedCommandChangesNothingElse :
    nextHas (complete (latched 0x15000000#32)) (fun t => t.ecode != 0) = true ∧
      nextHas (complete (latched 0x06000000#32)) (fun t => t.ecode != 0) = true := by decide
theorem witness_ErrorsOfEachCommand : exec .decend State.reset = .next State.reset.finishOk := by rfl
theorem witness_CommandsWriteOnlyTheirParts : exec .clrct State.reset = .next (State.reset.setCt []).finishOk := by rfl
theorem witness_CommandsIgnoreDataAndCmd : exec .nop State.reset = .next State.reset.finishOk := by rfl
/-- Every clause of HostReadValues, the reserved range at both ends. -/
theorem witness_HostReadValues :
    [0x00#8, 0x04#8, 0x08#8, 0x0C#8, 0x10#8, 0x14#8, 0x18#8, 0x1C#8, 0x20#8, 0x24#8, 0x28#8, 0x2C#8, 0xFC#8].all (fun off =>
      [true, false].all fun b =>
        decide (({ State.reset with busy := b, turns := [.host (.read off 4)] } : State).turns = [.host (.read off 4)]) &&
          decide (off.toNat % 4 = 0)) = true := by decide
theorem witness_HostWriteEffects :
    [0x00#8, 0x0C#8, 0x10#8, 0x14#8, 0x18#8, 0x1C#8, 0xFC#8].all (fun off => [true, false].all fun b =>
      decide (({ State.reset with busy := b, turns := [.host (.write off 4 0xC#32)] } : State).turns =
        [.host (.write off 4 0xC#32)]) && decide (off.toNat % 4 = 0)) = true := by decide
theorem witness_WindowAddressMap :
    ((255 : Nat) < 256 ∨ 256 + 256 ≤ 255) ∧ ((512 : Nat) < 256 ∨ 256 + 256 ≤ 512) := by decide
theorem witness_WaitEndsWithBusyClear :
    ({ latched 0x06000000#32 with turns := waitTurns 0 } : State).turns = waitTurns 0 ∧
      ({ latched 0x06000000#32 with turns := waitTurns 2 } : State).turns = waitTurns 2 := by decide
theorem witness_IssuedCommandRuns :
    let s : State := { State.reset with turns := cmdDataTurns 0 7 (.setfreq 0x61#8) ++ [.engine] }
    (Instr.setfreq 0x61#8).wf = true ∧ s.busy = false ∧ s.resetting = false ∧
      s.turns = cmdDataTurns 0 7 (.setfreq 0x61#8) ++ .engine :: [] := by decide
theorem witness_SameCycleWritesComeFirst :
    let s : State := { latched 0x06000000#32 with turns := sameCycle (.write 0x18 4 4#32) }
    let u : State := { latched 0x06000000#32 with turns := sameCycle (.write 0x14 4 0#32) }
    (s.busy = true ∧ s.resetting = false ∧ (4#32).getLsbD 2 = true ∧
      nextHas (Host.Core.run Sys2Proof.core 2 s) (fun t => t.ecode != 0) = true) ∧
    (u.busy = true ∧ u.resetting = false ∧ nextHas (Host.Core.run Sys2Proof.core 2 u) (fun _ => true) = true) := by decide
/-- A STATUS write, the end of a reset sequence, and SRESET each clear ESTICKY. -/
theorem witness_OnlyThreeThingsClearEsticky :
    ∀ s ∈ [({ State.reset with esticky := true, turns := [.host (.write 0x18 4 4#32)] } : State),
      { State.reset with esticky := true, busy := true, resetting := true },
      { latched 0x01000000#32 with esticky := true }],
    s.esticky = true ∧ nextHas (step s) (fun t => !t.esticky) = true := by decide
theorem witness_OvrIsSetAndClearedByTheHost :
    (∀ s ∈ [({ State.reset with ovr := true, turns := [.host (.write 0x18 4 8#32)] } : State),
      { State.reset with ovr := true, busy := true, resetting := true }], nextHas (step s) (fun t => !t.ovr) = true) ∧
    nextHas (step { latched 0 with turns := [.host (.write 0x14 4 0#32)] }) (fun t => t.ovr) = true := by decide
theorem witness_BusySpansAcceptanceToCompletion :
    (∀ s ∈ [({ State.reset with turns := [.host (.write 0x14 4 0#32)] } : State), { State.reset with turns := [.reset] }],
      s.busy = false ∧ nextHas (step s) (fun t => t.busy) = true) ∧
    (latched 0).busy = true ∧ nextHas (step (latched 0)) (fun t => !t.busy) = true := by decide
/-- The start; the end in both of its forms; a whole sequence with a dropped command and a second reset in it, its end by the list
and past the list. -/
theorem witness_HardwareResetSequence :
    ({ State.reset with turns := [.reset] } : State).turns = .reset :: [] ∧
    (State.reset.beginReset.resetting = true ∧ State.reset.beginReset.turns = []) ∧
    (({ State.reset.beginReset with turns := [.engine] } : State).turns = .engine :: []) ∧
    (Turn.engine ∉ [wr .cmd 0x06000000#32, .reset] ∧ ∀ rest ∈ [[], [Turn.engine]],
      let s : State := { withOperand 7 with turns := .reset :: [wr .cmd 0x06000000#32, .reset] ++ rest }
      (∀ j ∈ [1, 2, 3], nextHas (Host.Core.run Sys2Proof.core j s) (fun u => u.busy) = true) ∧
        nextHas (Host.Core.run Sys2Proof.core 4 s) (fun t => t == State.reset) = true) := by decide
theorem witness_NopClearsTheError :
    (0#32).extractLsb' 24 8 = 0 ∧ (1#32).extractLsb' 24 8 = 0 ∧ (0x00FFFFFF#32).extractLsb' 24 8 = 0 := by decide
theorem witness_IncfreqCountsOneSymbol :
    (({ State.reset with freq := [(0x61#8, 0xFFFFFF#24)] } : State).freqAt 0x61#8).toNat = 16777215 ∧
      (({ State.reset with freq := [(0x61#8, 0xFFFFFE#24)] } : State).freqAt 0x61#8).toNat ≠ 16777215 := by decide
theorem witness_IncfreqOrderDoesNotMatter :
    State.reset.MemoriesOk ∧ [0x61#8, 0x62#8].Perm [0x62#8, 0x61#8] ∧
      (runAll ([0x61#8, 0x62#8].map Instr.incfreq) State.reset).isSome = true := by decide
theorem witness_CountingGivesTheFrequencyTable : ∀ x : Sym, [0x61#8, 0x61#8].count x ≤ 16777215 := fun x =>
  le_trans List.count_le_length (by decide)
theorem witness_SetfreqWritesOneCount :
    16777215 < (withOperand 0x01000000#32).curData.toNat ∧ (withOperand 0x00FFFFFF#32).curData.toNat ≤ 16777215 := by decide
theorem witness_BuildRefusesAnEmptyTable : State.reset.MemoriesOk ∧ ∀ x, State.reset.freqAt x = 0 :=
  ⟨by decide, fun _ => rfl⟩
theorem witness_BuildMakesATree : countsAbcd.MemoriesOk ∧ countsAbcd.freqAt 0x61#8 ≠ 0 := by decide
theorem witness_BuildMergesTheTwoLeastKeys :
    countsAbcd.MemoriesOk ∧
      nextHas (exec .build countsAbcd) (fun t => t.ecode == 0 && t.node[4]? == some (.internal 3#32 3#9 2#9) &&
        decide ((0#9).toNat < 4) && !(childIndices (t.node.take 4)).contains 0#9) = true := by decide
theorem witness_RootWeighsTheWholeTable :
    countsAbcde.MemoriesOk ∧ nextHas (exec .build countsAbcde) (fun t => t.ecode == 0) = true := by decide
/-- No tree, the first index out of range, the last in range; a leaf and an internal node. -/
theorem witness_RdnodeReadsOneNode :
    State.reset.treeValid = false ∧ treeAbcd.treeValid = true ∧ treeAbcd.nodeCount.toNat ≤ (7#9).toNat ∧
      (6#9).toNat < treeAbcd.nodeCount.toNat ∧ treeAbcd.nodeAt 0#9 = .leaf 0x61#8 4#32 ∧
      treeAbcd.nodeAt 6#9 = .internal 10#32 0#9 5#9 := by decide
theorem witness_DeriveGivesEveryPath_internal_root :
    treeAbcd.treeValid = true ∧ treeAbcd.DescriptorOk ∧ treeAbcd.TreeShape ∧
      nodeSymbol (treeAbcd.nodeAt treeAbcd.root) = none := by decide +kernel
theorem witness_DeriveGivesEveryPath_lone_leaf :
    treeLone.treeValid = true ∧ treeLone.DescriptorOk ∧ treeLone.TreeShape ∧
      nodeSymbol (treeLone.nodeAt treeLone.root) = some 0x61#8 := by decide +kernel
theorem witness_DerivedLengthsAreBounded :
    nextHas (exec .derive treeAbcd) (fun _ => true) = true ∧ 2 ≤ treeAbcd.leafCount ∧
      0x61#8 ∈ treeAbcd.node.filterMap nodeSymbol ∧ 0x65#8 ∉ treeAbcd.node.filterMap nodeSymbol ∧
      treeLone.leafCount = 1 ∧ 0x61#8 ∈ treeLone.node.filterMap nodeSymbol := by decide
theorem witness_DerivedTableIsPrefixFree :
    nextHas (exec .derive treeAbcd) (fun t => t.codeOf 0x61#8 != [] && t.codeOf 0x62#8 != []) = true := by decide
theorem witness_DerivedLengthsMeetKraftEquality :
    (nextHas (exec .derive treeAbcd) (fun t => t.ecode == 0) = true ∧ treeAbcd.TreeInv) ∧ treeLone.TreeInv := by decide +kernel
theorem witness_WrctlWritesOneLength :
    255 < (withOperand 256#32).curData.toNat ∧ (withOperand 255#32).curData.toNat ≤ 255 := by decide
/-- No code word; one free bit too few; exactly enough. -/
theorem witness_EncAppendsTheCodeWord :
    (tableAbcd.ctAt 0x7A#8).len = 0 ∧ (tableAbcd.ctAt 0x63#8).len ≠ 0 ∧
      1024 - (List.replicate 1022 true).length < (tableAbcd.ctAt 0x63#8).len.toNat ∧
      (tableAbcd.ctAt 0x63#8).len.toNat ≤ 1024 - (List.replicate 1021 true).length := by decide +kernel
theorem witness_RdoutTakesBitsFromTheFront : (1 ≤ 1 ∧ 1 ≤ 32) ∧ (1 ≤ 32 ∧ 32 ≤ 32) := by decide
theorem witness_StreamIsTheCodeWordsInOrder :
    (∀ n, EncOp.rdout n ∈ [EncOp.enc 0x61#8, .enc 0x63#8, .rdout 2] → 1 ≤ n ∧ n ≤ 32) ∧
      (runEnc [.enc 0x61#8, .enc 0x63#8, .rdout 2] tableAbcd).map (fun r => (r.2, r.1.outq)) =
        some ([false, true], [true, true]) :=
  ⟨fun n h => by simp at h; omega, by decide⟩
theorem witness_DecIsAllOrNothing :
    32 - (List.replicate 31 0x61#8).length < 2 ∧ 2 ≤ 32 - (List.replicate 30 0x61#8).length := by decide
/-- ACC_OVF; a full accumulator; one short of full; a match and no match. -/
theorem witness_DecTakesOneDigit :
    tableAbcd.MemoriesOk ∧ tableAbcd.symq.length < 32 ∧ tableAbcd.accOvf = false ∧ tableAbcd.accLen ≠ 255 ∧
      ({ tableAbcd with accLen := 254 } : State).accLen ≠ 255 ∧ ({ tableAbcd with accLen := 255 } : State).accLen = 255 ∧
      ({ tableAbcd with accOvf := true } : State).accOvf = true ∧
      ((tableAbcd.ctAt 0x61#8).len.toNat = tableAbcd.accLen.toNat + 1 ∧
        tableAbcd.codeOf 0x61#8 = tableAbcd.acc ++ [tableAbcd.curData.getLsbD 31]) := by decide
theorem witness_DecTakesOneDigit_lowest_and_none :
    (∀ y < 0x61#8, ¬ isMatch tableAbcd (tableAbcd.accLen.toNat + 1) (tableAbcd.acc ++ [tableAbcd.curData.getLsbD 31]) y) ∧
      ∀ x, ¬ isMatch State.reset (State.reset.accLen.toNat + 1) (State.reset.acc ++ [State.reset.curData.getLsbD 31]) x := by
  constructor
  · intro y hy h
    have hy' : y.toNat < 97 := by simpa [BitVec.lt_def] using hy
    have hne : ∀ c ∈ tableAbcd.ct, c.1 ≠ y := by
      intro c hc e
      have : 97 ≤ c.1.toNat := by
        have h : tableAbcd.ct.all (fun c => decide (97 ≤ c.1.toNat)) = true := by decide
        simpa using List.all_eq_true.1 h c hc
      rw [e] at this
      omega
    have hl : (tableAbcd.ctAt y).len = 0 := by
      have : tableAbcd.ctAt y = emptyEntry := by
        simp only [tableAbcd, State.ctAt, Memory.get, List.mem_cons, forall_eq_or_imp] at hne ⊢
        simp [hne.1, hne.2.1, hne.2.2.1, hne.2.2.2.1]
      rw [this]; rfl
    have := h.1
    rw [hl] at this
    exact absurd this (by decide)
  · intro x h
    have : (State.reset.ctAt x).len.toNat = 1 := h.1
    exact absurd this (by simp [State.reset, State.ctAt, Memory.get, emptyEntry])
theorem witness_DecCutAnywhere :
    nextHas (exec (.dec (31 + 1)) { withOperand 0xFFFFFFFF#32 with ct := [(0x61#8, entry 1 0x80000000#32)] })
      (fun t => t.ecode == 0 && t.symq.length == 32) = true := by decide +kernel
theorem witness_OverflowDiscardsEveryDigit :
    let s : State := { State.reset with accOvf := true, accLen := 255, acc := List.replicate 255 false }
    s.accOvf = true ∧ 32 ≤ 32 - s.symq.length := by decide
theorem witness_DecendChecksTheAccumulator :
    (({ State.reset with acc := [true], accLen := 1 } : State).accLen ≠ 0) ∧
      (({ State.reset with accOvf := true } : State).accOvf = true) ∧
      State.reset.accLen = 0 ∧ State.reset.accOvf = false := by decide
theorem witness_PopsymTakesTheFrontSymbol :
    State.reset.symq = [] ∧ ({ State.reset with symq := [0x61#8] } : State).symq = 0x61#8 :: [] := by decide
/-- "ab" counted, built, derived, encoded with a RDOUT between and after, and decoded in a DEC of two digits between two POPSYMs. -/
theorem witness_RoundTrip :
    ([0x61#8, 0x62#8] ≠ [] ∧ ∀ x : Sym, [0x61#8, 0x62#8].count x ≤ 16777215) ∧
    (∀ n, EncOp.rdout n ∈ [EncOp.enc 0x61#8, .rdout 1, .enc 0x62#8, .rdout 32] → 1 ≤ n ∧ n ≤ 32) ∧
    encoded [EncOp.enc 0x61#8, .rdout 1, .enc 0x62#8, .rdout 32] = [0x61#8, 0x62#8] ∧
    (∀ n v, DecOp.dec n v ∈ [DecOp.pop, .dec 2 0x40000000#32, .pop] → 1 ≤ n ∧ n ≤ 32) ∧
    ((runAll (.clrfreq :: [0x61#8, 0x62#8].map Instr.incfreq ++ [.build, .derive, .clrout]) State.reset).bind fun t =>
      (runEnc [.enc 0x61#8, .rdout 1, .enc 0x62#8, .rdout 32] t).bind fun r =>
        (runAll [.decrst] r.1).map fun w =>
          r.1.outq == [] && r.2 == [0x61#8, 0x62#8].flatMap t.codeOf && fed [.pop, .dec 2 0x40000000#32, .pop] == r.2 &&
            ((runDec [.pop, .dec 2 0x40000000#32, .pop] w).map fun r => (r.2, r.1.symq)) == some ([0x61#8], [0x62#8])) =
      some true :=
  ⟨⟨by decide, fun x => le_trans List.count_le_length (by decide)⟩, fun n h => by simp at h; omega, by decide,
    fun n v h => by simp at h; omega, by decide +kernel⟩
theorem witness_StepKeepsTheInvariant :
    tableAbcd.Inv ∧ nextHas (step { tableAbcd with turns := [.engine] }) (fun _ => true) = true := by decide +kernel
theorem witness_StepKeepsTheTreeShape : tableAbcd.TreeInv ∧ treeAbcd.Inv := by decide +kernel
/-- A run of two steps that raises no error, its second step a completion. -/
theorem witness_NoErrorIsHidden :
    let s : State := { State.reset with turns := [.host (.write 0x14 4 0#32), .engine] }
    s.Unhidden ∧ nextHas (Host.Core.run Sys2Proof.core 2 s) (fun t => !t.esticky && !t.busy) = true ∧
      nextHas (Host.Core.run Sys2Proof.core 1 s) (fun t => t.busy) = true := by decide

end Sys2Proof.Machine.Tests
end

section
/-! SUPPORT. The family of 10_state.md: what a command writes where it raises no error, what a completion and a step can do, and
the invariants and frames of the block's state that follow. -/

namespace Sys2Proof.Machine

/-! ## What a command writes -/

/-- `Effect s i u`: where the command `i` raises no error from `s`, `u` is `s` with the command's writes applied, before the
status of its completion (R131). -/
inductive Effect (s : State) : Instr → State → Prop where
  | nop : Effect s .nop s
  | sreset : Effect s .sreset s.softReset
  | clrfreq : Effect s .clrfreq (s.setFreq [])
  | incfreq {x : Sym} (h : s.freqAt x ≠ Config.freqMax) :
      Effect s (.incfreq x) (s.setFreqAt x (s.freqAt x + 1))
  | setfreq {x : Sym} {c : Count} (h : s.dataCount = some c) : Effect s (.setfreq x) (s.setFreqAt x c)
  | rdfreq {x : Sym} : Effect s (.rdfreq x) (s.setResults ((s.freqAt x).setWidth 32) 0)
  | build (h : s.leaves ≠ []) : Effect s .build (s.installTree s.leaves)
  | rdnode {i : NodeIx} (hv : s.treeValid = true) (hi : i.toNat < s.nodeCount.toNat) :
      Effect s (.rdnode i) (s.setResults (s.nodeAt i).weight (nodeInfo (i == s.root) (s.nodeAt i)))
  | derive (h : s.treeValid = true) : Effect s .derive (s.setCt (tableOf s.codeWords))
  | clrct : Effect s .clrct (s.setCt [])
  | wrctl {x : Sym} {l : BitVec 8} (h : s.dataLen = some l) :
      Effect s (.wrctl x) (s.setCtAt x { s.ctAt x with len := l })
  | wrctw {x : Sym} {w : BitVec 3} :
      Effect s (.wrctw x w) (s.setCtAt x { s.ctAt x with words := (s.ctAt x).words.set w.toNat s.dataWord w.isLt })
  | rdctl {x : Sym} : Effect s (.rdctl x) (s.setResults ((s.ctAt x).len.setWidth 32) 0)
  | rdctw {x : Sym} {w : BitVec 3} : Effect s (.rdctw x w) (s.setResults (s.ctWord x w) 0)
  | enc {x : Sym} (hl : (s.ctAt x).len ≠ 0)
      (hf : (s.ctAt x).len.toNat ≤ Config.outqBits - s.outq.length) :
      Effect s (.enc x) (s.setOutq (s.outq ++ s.codeOf x))
  | rdout {n : Nat} :
      Effect s (.rdout n)
        ((s.setOutq (s.outq.drop n)).setResults (packWord (s.outq.take n)) (BitVec.ofNat 32 (min n s.outq.length)))
  | clrout : Effect s .clrout (s.setOutq [])
  | dec {n : Nat} (h : n ≤ Config.symqDepth - s.symq.length) :
      Effect s (.dec n) (s.digits (s.dataDigits n))
  | decend (h : s.accNe = false) : Effect s .decend s
  | popsymEmpty (h : s.symq = []) : Effect s .popsym (s.setResults 0 0)
  | popsym {x : Sym} {q : List Sym} (h : s.symq = x :: q) :
      Effect s .popsym ((s.setSymq q).setResults (poppedWord x) (BitVec.ofNat 32 q.length))
  | decrst : Effect s .decrst ((s.setAcc [] 0 false).setSymq [])

/-- A command raises one of its errors or completes with its writes (R131, R232). -/
theorem exec_cases (i : Instr) (s : State) :
    (∃ e : Error, e.code ∈ errorsOf i ∧ exec i s = raise e s) ∨ (∃ u, Effect s i u ∧ exec i s = ok u) := by
  cases i with
  | nop => exact .inr ⟨_, .nop, rfl⟩
  | sreset => exact .inr ⟨_, .sreset, rfl⟩
  | clrfreq => exact .inr ⟨_, .clrfreq, rfl⟩
  | incfreq x =>
    by_cases h : s.freqAt x = Config.freqMax
    · exact .inl ⟨.countOverflow, by simp [errorsOf, Error.code], if_pos h⟩
    · exact .inr ⟨_, .incfreq h, if_neg h⟩
  | setfreq x =>
    cases h : s.dataCount with
    | none => exact .inl ⟨.valueRange, by simp [errorsOf, Error.code], by simp [exec, execSetfreq, h]⟩
    | some c => exact .inr ⟨_, .setfreq h, by simp [exec, execSetfreq, h]⟩
  | rdfreq x => exact .inr ⟨_, .rdfreq, rfl⟩
  | build =>
    cases h : s.leaves with
    | nil => exact .inl ⟨.emptyInput, by decide, by simp [exec, execBuild, h]⟩
    | cons l ls => exact .inr ⟨_, .build (by simp [h]), by simp [exec, execBuild, h]⟩
  | rdnode k =>
    by_cases hv : s.treeValid = false
    · exact .inl ⟨.noTree, by simp [errorsOf, Error.code], if_pos hv⟩
    · by_cases hk : s.nodeCount.toNat ≤ k.toNat
      · exact .inl ⟨.nodeRange, by simp [errorsOf, Error.code], (if_neg hv).trans (if_pos hk)⟩
      · exact .inr ⟨_, .rdnode (by simpa using hv) (by omega), (if_neg hv).trans (if_neg hk)⟩
  | derive =>
    by_cases hv : s.treeValid = false
    · exact .inl ⟨.noTree, by decide, if_pos hv⟩
    · exact .inr ⟨_, .derive (by simpa using hv), if_neg hv⟩
  | clrct => exact .inr ⟨_, .clrct, rfl⟩
  | wrctl x =>
    cases h : s.dataLen with
    | none => exact .inl ⟨.valueRange, by simp [errorsOf, Error.code], by simp [exec, execWrctl, h]⟩
    | some l => exact .inr ⟨_, .wrctl h, by simp [exec, execWrctl, h]⟩
  | wrctw x w => exact .inr ⟨_, .wrctw, rfl⟩
  | rdctl x => exact .inr ⟨_, .rdctl, rfl⟩
  | rdctw x w => exact .inr ⟨_, .rdctw, rfl⟩
  | enc x =>
    by_cases hl : (s.ctAt x).len = 0
    · exact .inl ⟨.unknownSymbol, by simp [errorsOf, Error.code], if_pos hl⟩
    · by_cases hf : Config.outqBits - s.outq.length < (s.ctAt x).len.toNat
      · exact .inl ⟨.outqFull, by simp [errorsOf, Error.code], (if_neg hl).trans (if_pos hf)⟩
      · exact .inr ⟨_, .enc hl (by omega), (if_neg hl).trans (if_neg hf)⟩
  | rdout n => exact .inr ⟨_, .rdout, rfl⟩
  | clrout => exact .inr ⟨_, .clrout, rfl⟩
  | dec n =>
    by_cases h : Config.symqDepth - s.symq.length < n
    · exact .inl ⟨.symqFull, by simp [errorsOf, Error.code], if_pos h⟩
    · exact .inr ⟨_, .dec (by omega), if_neg h⟩
  | decend =>
    by_cases h : s.accNe = true
    · exact .inl ⟨.malformedStream, by decide, if_pos h⟩
    · exact .inr ⟨_, .decend (by simpa using h), if_neg h⟩
  | popsym =>
    cases h : s.symq with
    | nil => exact .inr ⟨_, .popsymEmpty h, by simp [exec, execPopsym, h]⟩
    | cons x q => exact .inr ⟨_, .popsym h, by simp [exec, execPopsym, h]⟩
  | decrst => exact .inr ⟨_, .decrst, rfl⟩

/-- The state a command ends in: an error's status over the state it started from, or a success's over its writes (R131, R233). -/
theorem exec_next_cases {i : Instr} {s t : State} (h : exec i s = .next t) :
    (∃ e : Error, e.code ∈ errorsOf i ∧ t = s.finishErr e) ∨ (∃ u, Effect s i u ∧ t = u.finishOk) := by
  rcases exec_cases i s with ⟨e, he, hx⟩ | ⟨u, hu, hx⟩
  · exact .inl ⟨e, he, (raise_eq_next e s t).1 (hx ▸ h)⟩
  · exact .inr ⟨u, hu, (ok_eq_next u t).1 (hx ▸ h)⟩

/-- The state a completion ends in; an error is one the decoded command can raise (R110, R131, R233). -/
theorem complete_next_cases {s t : State} (h : complete s = .next t) :
    (∃ e : Error, (∀ i, decode s.curCmd = some i → e.code ∈ errorsOf i) ∧ t = s.finishErr e) ∨
    (∃ i u, decode s.curCmd = some i ∧ Effect s i u ∧ t = u.finishOk) := by
  rcases complete_cases s with ⟨hd, hc⟩ | ⟨i, hd, hc⟩
  · exact .inl ⟨.illegalCommand, by simp [hd], (raise_eq_next _ s t).1 (hc ▸ h)⟩
  · rcases exec_next_cases (hc ▸ h) with ⟨e, he, ht⟩ | ⟨u, hu, ht⟩
    · exact .inl ⟨e, by simpa [hd] using he, ht⟩
    · exact .inr ⟨i, u, hd, hu, ht⟩

/-! ## The frame of a command -/

theorem keptBut_refl (ps : List Part) (s : State) : KeptBut ps s s := by
  intro p _
  cases p <;> simp [Part.Same]

theorem Part.Same.trans {p : Part} {s t u : State} (h₁ : p.Same s t) (h₂ : p.Same t u) : p.Same s u := by
  cases p <;> simp_all [Part.Same]

theorem KeptBut.trans {ps : List Part} {s t u : State} (h₁ : KeptBut ps s t) (h₂ : KeptBut ps t u) : KeptBut ps s u :=
  fun p hp => (h₁ p hp).trans (h₂ p hp)

theorem KeptBut.mono {ps qs : List Part} {s t : State} (h : KeptBut ps s t) (hs : ps ⊆ qs) : KeptBut qs s t :=
  fun p hp => h p fun hm => hp (hs hm)

theorem keptBut_finishErr (ps : List Part) (s : State) (e : Error) : KeptBut ps s (s.finishErr e) := by
  intro p _
  cases p <;> simp [Part.Same]

theorem KeptBut.finishOk {ps : List Part} {s u : State} (h : KeptBut ps s u) : KeptBut ps s u.finishOk := by
  intro p hp
  cases p <;> exact h _ hp

section Setters

variable (s : State)

theorem keptBut_setFreq (m : Memory Count) : KeptBut [.freq] s (s.setFreq m) := by
  intro p hp
  cases p <;> simp [Part.Same] at hp ⊢

theorem keptBut_setTree (ns : List Node) (b : Bool) (c : BitVec 10) (r : NodeIx) :
    KeptBut [.tree] s (s.setTree ns b c r) := by
  intro p hp
  cases p <;> simp [Part.Same] at hp ⊢

theorem keptBut_setCt (m : Memory CtEntry) : KeptBut [.ct] s (s.setCt m) := by
  intro p hp
  cases p <;> simp [Part.Same] at hp ⊢

theorem keptBut_setOutq (q : Digits) : KeptBut [.outq] s (s.setOutq q) := by
  intro p hp
  cases p <;> simp [Part.Same] at hp ⊢

theorem keptBut_setAcc (a : Digits) (l : BitVec 8) (o : Bool) : KeptBut [.acc] s (s.setAcc a l o) := by
  intro p hp
  cases p <;> simp [Part.Same] at hp ⊢

theorem keptBut_setSymq (q : List Sym) : KeptBut [.symq] s (s.setSymq q) := by
  intro p hp
  cases p <;> simp [Part.Same] at hp ⊢

theorem keptBut_setResults (r₀ r₁ : Word) : KeptBut [.results] s (s.setResults r₀ r₁) := by
  intro p hp
  cases p <;> simp [Part.Same] at hp ⊢

/-- SRESET writes every part but the host's (R133). -/
theorem keptBut_softReset : KeptBut (mayWrite .sreset) s s.softReset := by
  intro p hp
  cases p <;> simp [mayWrite, Part.Same] at hp ⊢

theorem keptBut_setAcc_setSymq (a : Digits) (l : BitVec 8) (o : Bool) (q : List Sym) :
    KeptBut [.acc, .symq] s ((s.setAcc a l o).setSymq q) :=
  ((keptBut_setAcc s a l o).mono (by simp)).trans ((keptBut_setSymq _ q).mono (by simp))

end Setters

/-- A digit writes the accumulator and SYMQ and nothing else (R211, R212). -/
theorem digit_eq_setAcc_setSymq (s : State) (d : Bool) :
    ∃ a l o q, s.digit d = (s.setAcc a l o).setSymq q := by
  rcases digit_cases s d with ⟨-, h⟩ | ⟨-, -, h⟩ | ⟨-, -, -, h⟩ | ⟨x, -, -, -, h⟩
  · exact ⟨s.acc, s.accLen, s.accOvf, s.symq, h⟩
  · exact ⟨s.acc, s.accLen, true, s.symq, h⟩
  · exact ⟨s.acc ++ [d], s.accLen + 1, s.accOvf, s.symq, h⟩
  · exact ⟨_, _, _, _, h⟩

/-- Any number of digits write the accumulator and SYMQ and nothing else (R210). -/
theorem digits_eq_setAcc_setSymq (s : State) (ds : Digits) :
    ∃ a l o q, s.digits ds = (s.setAcc a l o).setSymq q := by
  induction ds generalizing s with
  | nil => exact ⟨s.acc, s.accLen, s.accOvf, s.symq, rfl⟩
  | cons d ds ih =>
    obtain ⟨a, l, o, q, h⟩ := digit_eq_setAcc_setSymq s d
    obtain ⟨a', l', o', q', h'⟩ := ih (s.digit d)
    exact ⟨a', l', o', q', by rw [digits_cons, h', h]; rfl⟩

/-- The writes of a command stay within the parts the rules name for it. -/
theorem Effect.keptBut {i : Instr} {s u : State} (w : Effect s i u) : KeptBut (mayWrite i) s u := by
  cases w with
  | nop => exact keptBut_refl _ s
  | sreset => exact keptBut_softReset s
  | clrfreq => exact keptBut_setFreq s _
  | incfreq => exact keptBut_setFreq s _
  | setfreq => exact keptBut_setFreq s _
  | rdfreq => exact keptBut_setResults s _ _
  | build => exact keptBut_setTree s _ _ _ _
  | rdnode => exact keptBut_setResults s _ _
  | derive => exact keptBut_setCt s _
  | clrct => exact keptBut_setCt s _
  | wrctl => exact keptBut_setCt s _
  | wrctw => exact keptBut_setCt s _
  | rdctl => exact keptBut_setResults s _ _
  | rdctw => exact keptBut_setResults s _ _
  | enc => exact keptBut_setOutq s _
  | rdout =>
    exact ((keptBut_setOutq s _).mono (by simp [mayWrite])).trans
      ((keptBut_setResults _ _ _).mono (by simp [mayWrite]))
  | clrout => exact keptBut_setOutq s _
  | dec =>
    obtain ⟨a, l, o, q, h⟩ := digits_eq_setAcc_setSymq s _
    exact h ▸ keptBut_setAcc_setSymq s a l o q
  | decend => exact keptBut_refl _ s
  | popsymEmpty => exact (keptBut_setResults s _ _).mono (by simp [mayWrite])
  | popsym =>
    exact ((keptBut_setSymq s _).mono (by simp [mayWrite])).trans
      ((keptBut_setResults _ _ _).mono (by simp [mayWrite]))
  | decrst => exact keptBut_setAcc_setSymq s _ _ _ _

/-- A command writes only the parts the rules name for it, whichever way it completes. -/
theorem exec_keptBut {i : Instr} {s t : State} (h : exec i s = .next t) : KeptBut (mayWrite i) s t := by
  rcases exec_next_cases h with ⟨e, -, rfl⟩ | ⟨u, hu, rfl⟩
  · exact keptBut_finishErr _ s e
  · exact hu.keptBut.finishOk

/-- Settles O13: the frame of the writes, command by command, under either status. -/
theorem commandsWriteOnlyTheirParts : Obligations.CommandsWriteOnlyTheirParts :=
  fun _ _ _ h => exec_keptBut h

/-- No command writes the host's part (R27, R33). -/
theorem host_notMem_mayWrite (i : Instr) : Part.host ∉ mayWrite i := by
  cases i <;> simp [mayWrite]

/-- The latches are written by SRESET alone (R50, R131, R262; log 13). -/
theorem latches_notMem_mayWrite {i : Instr} (h : i ≠ .sreset) : Part.latches ∉ mayWrite i := by
  cases i <;> simp [mayWrite] at h ⊢

/-- Where no error is raised, only SRESET writes ESTICKY (R32). -/
theorem Effect.esticky {i : Instr} {s u : State} (w : Effect s i u) (h : i ≠ .sreset) : u.esticky = s.esticky := by
  cases w with
  | sreset => exact absurd rfl h
  | dec =>
    obtain ⟨a, l, o, q, hd⟩ := digits_eq_setAcc_setSymq s _
    rw [hd]; rfl
  | _ => rfl

/-! ## What a completion leaves -/

/-- SRESET has one word (R102, R106). -/
theorem decode_eq_some_sreset {w : Word} : decode w = some .sreset ↔ w = 0x01000000#32 := by
  constructor
  · intro h
    obtain ⟨r, hr, hc⟩ := Option.map_eq_some_iff.1 h
    have row : ∀ r ∈ opRows, r.command w = .sreset → r.pattern = 0x01000000#32 ∧ r.mask = BitVec.allOnes 32 := by
      simp [opRows, rowsLow, rowsTable, rowsCodec]
    obtain ⟨hp, hm⟩ := row r (List.mem_of_find?_eq_some hr) hc
    have hit := List.find?_some hr
    rw [OpRow.hits, hp, hm, BitVec.and_allOnes] at hit
    simpa using hit
  · rintro rfl
    decide

theorem complete_host {s t : State} (h : complete s = .next t) : Part.host.Same s t := by
  rcases complete_next_cases h with ⟨e, -, rfl⟩ | ⟨i, u, -, hu, rfl⟩
  · exact keptBut_finishErr [] s e _ (by simp)
  · exact hu.keptBut.finishOk _ (host_notMem_mayWrite i)

theorem complete_ovr {s t : State} (h : complete s = .next t) : t.ovr = s.ovr := by
  obtain ⟨-, hovr, -⟩ := complete_host h
  exact hovr

theorem complete_resetting {s t : State} (h : complete s = .next t) : t.resetting = s.resetting := by
  obtain ⟨-, -, hr, -⟩ := complete_host h
  exact hr

theorem complete_busy {s t : State} (h : complete s = .next t) : t.busy = false := by
  rcases complete_next_cases h with ⟨e, -, rfl⟩ | ⟨i, u, -, -, rfl⟩ <;> rfl

/-- A completion with an error sets ESTICKY (R32). -/
theorem complete_esticky_of_ecode {s t : State} (h : complete s = .next t) (he : t.ecode ≠ 0) : t.esticky = true := by
  rcases complete_next_cases h with ⟨e, -, rfl⟩ | ⟨i, u, -, -, rfl⟩
  · rfl
  · exact absurd rfl he

/-- A completion that clears ESTICKY is SRESET's (R32). -/
theorem curCmd_of_complete_clears_esticky {s t : State} (h : complete s = .next t) (hs : s.esticky = true)
    (ht : t.esticky = false) : s.curCmd = 0x01000000#32 := by
  rcases complete_next_cases h with ⟨e, -, rfl⟩ | ⟨i, u, hd, hu, rfl⟩
  · simp at ht
  · have hi : i = .sreset := by
      by_contra hne
      simp [hu.esticky hne, hs] at ht
    exact decode_eq_some_sreset.1 (hi ▸ hd)

/-- CUR_CMD after a completion (R50, R131, R262; log 13). -/
theorem complete_curCmd {s t : State} (h : complete s = .next t) :
    t.curCmd = if s.curCmd = 0x01000000#32 then 0 else s.curCmd := by
  rcases complete_next_cases h with ⟨e, he, rfl⟩ | ⟨i, u, hd, hu, rfl⟩
  · have hne : s.curCmd ≠ 0x01000000#32 := fun hw => by
      simpa [errorsOf] using he .sreset (decode_eq_some_sreset.2 hw)
    simp [hne]
  · by_cases hi : i = .sreset
    · subst hi
      cases hu
      simp [decode_eq_some_sreset.1 hd]
    · have hne : s.curCmd ≠ 0x01000000#32 := fun hw => by
        simp [decode_eq_some_sreset.2 hw] at hd
        exact hi hd.symm
      obtain ⟨hc, -⟩ := hu.keptBut _ (latches_notMem_mayWrite hi)
      simp [hne, hc]

/-! ## What a step can do -/

/-- A register other than the reserved words lies at one offset (R23). -/
theorem offset_regAt {off : BitVec 8} (h : regAt off ≠ .reserved) : (regAt off).offset = off := by
  revert h
  unfold regAt
  split_ifs <;> simp_all [Reg.offset]

theorem answered_width {off : BitVec 8} {width : Nat} (h : answered off width = true) : width = 4 := by
  simp [answered] at h
  exact h.1

/-- The engine moves next: on its own turn, or past the end of the turns (log 1). -/
def State.EngineNext (s : State) : Prop := s.turns = [] ∨ ∃ ts, s.turns = .engine :: ts

/-- `Moves s t`: one step takes `s` to `t`, with the turn it took and what that turn did (R16, R64, R131, R260). -/
inductive Moves (s : State) : State → Prop where
  | endsReset (he : s.EngineNext) (hr : s.resetting = true) : Moves s (s.setTurns s.turns.tail).endReset
  | completes {t : State} (he : s.EngineNext) (hr : s.resetting = false) (hb : s.busy = true)
      (hc : complete (s.setTurns s.turns.tail) = .next t) : Moves s t
  | idles (he : s.EngineNext) (hr : s.resetting = false) (hb : s.busy = false) : Moves s (s.setTurns s.turns.tail)
  | beginsReset {ts : List Turn} (h : s.turns = .reset :: ts) : Moves s (s.setTurns ts).beginReset
  | reads {off : BitVec 8} {ts : List Turn} (h : s.turns = .host (.read off 4) :: ts) :
      Moves s ((s.setTurns ts).hostRead off)
  | writesData {v : Word} {ts : List Turn} (h : s.turns = .host (.write 0x10 4 v) :: ts) :
      Moves s ((s.setTurns ts).setData v)
  | dropsCmd {v : Word} {ts : List Turn} (h : s.turns = .host (.write 0x14 4 v) :: ts) (hb : s.busy = true) :
      Moves s (s.setTurns ts).setOvr
  | acceptsCmd {v : Word} {ts : List Turn} (h : s.turns = .host (.write 0x14 4 v) :: ts) (hb : s.busy = false) :
      Moves s ((s.setTurns ts).accept v)
  | writesStatus {v : Word} {ts : List Turn} (h : s.turns = .host (.write 0x18 4 v) :: ts) :
      Moves s ((s.setTurns ts).writeStatus v)
  | ignoresWrite {off : BitVec 8} {v : Word} {ts : List Turn} (h : s.turns = .host (.write off 4 v) :: ts) :
      Moves s (s.setTurns ts)

theorem moves_of_engineTurn {s t : State} (he : s.EngineNext) (h : engineTurn (s.setTurns s.turns.tail) = .next t) :
    Moves s t := by
  rcases engineTurn_cases (s.setTurns s.turns.tail) with ⟨hr, hx⟩ | ⟨hr, hb, hx⟩ | ⟨hr, hb, hx⟩
  · rw [hx] at h
    cases h
    exact .endsReset he hr
  · exact .completes he hr hb (hx ▸ h)
  · rw [hx] at h
    cases h
    exact .idles he hr hb

theorem moves_of_hostWrite {s : State} {off : BitVec 8} {v : Word} {ts : List Turn}
    (h : s.turns = .host (.write off 4 v) :: ts) : Moves s ((s.setTurns ts).hostWrite off v) := by
  have hoff : ∀ r : Reg, r ≠ .reserved → regAt off = r → s.turns = .host (.write r.offset 4 v) :: ts := by
    rintro r hne rfl
    rw [offset_regAt hne, h]
  rcases hostWrite_cases (s.setTurns ts) off v with ⟨hr, hx⟩ | ⟨hr, hb, hx⟩ | ⟨hr, hb, hx⟩ | ⟨hr, hx⟩ | hx <;> rw [hx]
  · exact .writesData (hoff .data (by decide) hr)
  · exact .dropsCmd (hoff .cmd (by decide) hr) hb
  · exact .acceptsCmd (hoff .cmd (by decide) hr) hb
  · exact .writesStatus (hoff .status (by decide) hr)
  · exact .ignoresWrite h

/-- Every step that answers a next state is one of the moves. -/
theorem moves_of_step {s t : State} (h : step s = .next t) : Moves s t := by
  rcases step_cases s with ⟨ht, hx⟩ | ⟨ts, ht, hx⟩ | ⟨ts, ht, hx⟩ | ⟨a, ts, ht, hx⟩ <;> rw [hx] at h
  · have hs : s.setTurns s.turns.tail = s := by
      rw [ht]
      exact congrArg s.setTurns ht.symm
    exact moves_of_engineTurn (.inl ht) (by rw [hs]; exact h)
  · exact moves_of_engineTurn (.inr ⟨ts, ht⟩) (by rw [ht]; exact h)
  · cases h
    exact .beginsReset ht
  · rcases hostAccess_cases (s.setTurns ts) a with
      ⟨off, width, rfl, hw, ha⟩ | ⟨off, width, v, rfl, hw, ha⟩ | ⟨off, width, -, ha⟩
    · obtain rfl := answered_width hw
      rw [ha] at h
      cases h
      exact .reads ht
    · obtain rfl := answered_width hw
      rw [ha] at h
      cases h
      exact moves_of_hostWrite ht
    · rw [ha] at h
      cases h

/-- The engine's turn while a command runs is its completion (R131). -/
theorem step_engine_busy {s : State} {ts : List Turn} (ht : s.turns = .engine :: ts) (hb : s.busy = true)
    (hr : s.resetting = false) : step s = complete (s.setTurns ts) := by
  simp [step, advance, ht, serve, engineTurn, hb, hr]

/-- The two steps of a host write in a completion's cycle: the write, then the completion (R32, R237; log 12). -/
theorem reaches_sameCycle_write {s t : State} {off : BitVec 8} {v : Word} (hoff : answered off 4 = true)
    (ht : s.turns = sameCycle (.write off 4 v)) (h : Reaches 2 s t) :
    step ((s.setTurns [.engine]).hostWrite off v) = .next t := by
  obtain ⟨u, hu, h₁⟩ := (reaches_succ 1 s t).1 h
  obtain ⟨w, hw, h₂⟩ := (reaches_succ 0 u t).1 h₁
  rw [reaches_zero] at h₂
  subst h₂
  have hs : step s = .next ((s.setTurns [.engine]).hostWrite off v) := by
    simp only [step, advance, ht, sameCycle, serve]
    exact hostAccess_write hoff
  rw [hs] at hu
  cases hu
  exact hw

/-! ## Steps and the flags -/

/-- A flag that keeps its value neither rises nor falls. -/
theorem flag_kept {a b : Bool} {p q : Prop} (h : b = a) : (a = false → b = true → p) ∧ (a = true → b = false → q) := by
  subst h
  cases b <;> simp

/-- Settles O21: the write is served first, then the completion, whose status and frame stand above. -/
theorem sameCycleWritesComeFirst : Obligations.SameCycleWritesComeFirst := by
  constructor
  · intro s t v hb hr _ ht h he
    have h₂ : step ((s.setTurns [.engine]).writeStatus v) = .next t := reaches_sameCycle_write (by decide) ht h
    rw [step_engine_busy (s := (s.setTurns [.engine]).writeStatus v) rfl hb hr] at h₂
    exact complete_esticky_of_ecode h₂ he
  · intro s t v hb hr ht h
    have hw : (s.setTurns [.engine]).hostWrite 0x14 v = (s.setTurns [.engine]).setOvr := if_pos hb
    have h₂ := reaches_sameCycle_write (by decide) ht h
    rw [hw, step_engine_busy (s := (s.setTurns [.engine]).setOvr) rfl hb hr] at h₂
    have hovr := complete_ovr h₂
    have hcmd := complete_curCmd h₂
    exact ⟨hovr, complete_busy h₂, hcmd⟩

/-- Settles O22: of the moves, a write of STATUS, the end of a reset sequence and a completion can clear ESTICKY, the last only
as SRESET. -/
theorem onlyThreeThingsClearEsticky : Obligations.OnlyThreeThingsClearEsticky := by
  intro s t h hs ht
  cases moves_of_step h with
  | endsReset he hr => exact .inr ⟨he, .inl hr⟩
  | completes he _ hb hc =>
    have hcmd := curCmd_of_complete_clears_esticky hc hs ht
    exact .inr ⟨he, .inr ⟨hb, hcmd⟩⟩
  | writesStatus hw => exact .inl ⟨_, _, hw, by simpa [hs] using ht⟩
  | _ => exact absurd (hs.symm.trans ht) (by decide)

/-- Settles O23: of the moves, a dropped CMD write sets OVR, and a write of STATUS and the end of a reset sequence can clear it. -/
theorem ovrIsSetAndClearedByTheHost : Obligations.OvrIsSetAndClearedByTheHost := by
  intro s t h
  cases moves_of_step h with
  | endsReset he hr => exact ⟨fun _ ht => absurd ht Bool.false_ne_true, fun _ _ => .inr ⟨hr, he⟩⟩
  | completes _ _ _ hc =>
    have hovr := complete_ovr hc
    exact flag_kept hovr
  | dropsCmd hw hb => exact ⟨fun _ _ => ⟨hb, _, _, hw⟩, fun _ ht => absurd ht.symm Bool.false_ne_true⟩
  | writesStatus hw =>
    exact ⟨fun hs ht => by simp [hs] at ht, fun hs ht => .inl ⟨_, _, hw, by simpa [hs] using ht⟩⟩
  | _ => exact flag_kept rfl

/-- Settles O24: of the moves, the acceptance of a command and the start of a reset sequence set BUSY, and only the engine's
moves clear it. -/
theorem busySpansAcceptanceToCompletion : Obligations.BusySpansAcceptanceToCompletion := by
  intro s t h
  cases moves_of_step h with
  | endsReset he _ => exact ⟨fun _ ht => absurd ht Bool.false_ne_true, fun _ _ => he⟩
  | completes he _ hb _ => exact ⟨fun hs => absurd (hb.symm.trans hs) (by decide), fun _ _ => he⟩
  | idles he _ hb => exact ⟨fun _ ht => absurd (hb.symm.trans ht) (by decide), fun _ _ => he⟩
  | beginsReset hw => exact ⟨fun _ _ => .inr ⟨_, hw⟩, fun _ ht => absurd ht.symm Bool.false_ne_true⟩
  | acceptsCmd hw _ => exact ⟨fun _ _ => .inl ⟨_, _, hw, rfl⟩, fun _ ht => absurd ht.symm Bool.false_ne_true⟩
  | _ => exact flag_kept rfl

/-! ## The reset state -/

theorem reset_inv : State.reset.Inv :=
  ⟨⟨rfl, by decide⟩, ⟨Memory.wf_nil, Memory.wf_nil⟩, by decide, by decide, by decide, by decide⟩

theorem reset_treeInv : State.reset.TreeInv := fun h => absurd h (by decide)

/-- Settles O57: both invariants speak of empty memories and queues here, and there is no tree. -/
theorem resetMeetsTheInvariants : Obligations.ResetMeetsTheInvariants := ⟨reset_inv, reset_treeInv⟩

theorem ctAt_reset (x : Sym) : State.reset.ctAt x = emptyEntry := rfl

theorem ctWord_reset (x : Sym) (w : BitVec 3) : State.reset.ctWord x w = 0 := by
  simp [State.ctWord, ctAt_reset, emptyEntry]

/-- Settles O25: each element is the one `State.reset` writes out; the memories list nothing. -/
theorem resetValues : Obligations.ResetValues :=
  ⟨rfl, rfl, rfl, rfl, rfl, rfl, rfl, rfl, rfl, rfl, fun _ => rfl, rfl, rfl, rfl, fun x => by rw [ctAt_reset]; rfl,
    ctWord_reset, rfl, rfl, rfl, rfl, rfl, by decide, by decide, by decide⟩

/-! ## The tree BUILD makes -/

/-- The merge loop joins the whole queue into one node, the last one made. What each turn keeps is that the queue's last key
stands for the last node (R150, R151, R153). -/
theorem mergeLoop_joins (fuel : Nat) : ∀ (ns : List Node) (q : List Key), q.length ≤ fuel + 1 →
    q.getLast?.map Prod.snd = some (BitVec.ofNat 9 (ns.length - 1)) →
      (mergeLoop fuel ns q).1.length + 1 = ns.length + q.length ∧
      rootOf (mergeLoop fuel ns q).2 = BitVec.ofNat 9 ((mergeLoop fuel ns q).1.length - 1) := by
  have single : ∀ (ns : List Node) (q : List Key), q.length ≤ 1 →
      q.getLast?.map Prod.snd = some (BitVec.ofNat 9 (ns.length - 1)) →
        ns.length + 1 = ns.length + q.length ∧ rootOf q = BitVec.ofNat 9 (ns.length - 1) := by
    intro ns q hl hq
    match q with
    | [] => simp at hq
    | [k] => exact ⟨rfl, by simpa [rootOf] using hq⟩
    | _ :: _ :: _ => simp at hl
  induction fuel with
  | zero => exact single
  | succ fuel ih =>
    intro ns q hl hq
    rcases mergeLoop_succ_cases fuel ns q with ⟨hshort, hm⟩ | ⟨a, b, q₁, q₂, h₁, h₂, hm⟩ <;> rw [hm]
    · exact single ns q (by omega) hq
    · have hl₁ := length_of_popMin h₁
      have hl₂ := length_of_popMin h₂
      obtain ⟨hlen, hroot⟩ := ih (ns ++ [.internal (a.1 + b.1) a.2 b.2])
        (q₂ ++ [(a.1 + b.1, BitVec.ofNat 9 ns.length)]) (by simp; omega) (by simp)
      refine ⟨?_, hroot⟩
      simp only [List.length_append, List.length_singleton] at hlen
      omega

/-- A tree over n leaves has 2n - 1 nodes, the root the last (R43, R150, R153). -/
theorem buildTree_shape {ls : List Node} (h : ls ≠ []) :
    (buildTree ls).1.length + 1 = 2 * ls.length ∧
    rootOf (buildTree ls).2 = BitVec.ofNat 9 ((buildTree ls).1.length - 1) := by
  have hlen : (keysOf ls).length = ls.length := by simp [keysOf]
  have hlast : (keysOf ls).getLast?.map Prod.snd = some (BitVec.ofNat 9 (ls.length - 1)) := by
    have hpos := List.length_pos_iff.2 h
    simp [keysOf, List.getLast?_eq_getElem?, hpos]
  obtain ⟨hn, hr⟩ := mergeLoop_joins ls.length ls (keysOf ls) (by omega) hlast
  exact ⟨by rw [buildTree]; omega, hr⟩

/-- BUILD writes a consistent descriptor (R43). -/
theorem installTree_descriptorOk (s : State) {ls : List Node} (h : ls ≠ []) (hl : ls.length ≤ 256) :
    (s.installTree ls).DescriptorOk := by
  obtain ⟨hn, hr⟩ := buildTree_shape h
  have hpos := List.length_pos_iff.2 h
  refine ⟨fun hv => absurd hv (by simp [State.installTree]), fun _ => ?_⟩
  simp only [State.installTree, setTree_node, setTree_nodeCount, setTree_root, hr, BitVec.toNat_ofNat]
  omega

/-! ## The invariant -/

/-- A digit keeps ACC_LEN the length of ACC (R47, R211, R212). -/
theorem digit_accOk {s : State} (h : s.AccOk) (d : Bool) : (s.digit d).AccOk := by
  obtain ⟨hlen, hovf⟩ := h
  rcases digit_cases s d with ⟨-, hd⟩ | ⟨-, hfull, hd⟩ | ⟨ho, hfull, -, hd⟩ | ⟨x, -, -, -, hd⟩ <;> rw [hd]
  · exact ⟨hlen, hovf⟩
  · exact ⟨hlen, fun _ => hfull⟩
  · have hlt : s.accLen.toNat ≠ 255 := fun e => hfull (BitVec.eq_of_toNat_eq e)
    refine ⟨?_, fun he => absurd (ho.symm.trans he) (by decide)⟩
    simp only [State.pushDigit, setAcc_acc, setAcc_accLen, List.length_append, List.length_singleton, hlen,
      BitVec.toNat_add]
    have := s.accLen.isLt
    simp
    omega
  · exact ⟨rfl, fun he => absurd he Bool.false_ne_true⟩

theorem digits_accOk {s : State} (h : s.AccOk) (ds : Digits) : (s.digits ds).AccOk := by
  induction ds generalizing s with
  | nil => exact h
  | cons d ds ih => exact ih (digit_accOk h d)

/-- A digit emits at most one symbol (R211). -/
theorem length_symq_digit_le (s : State) (d : Bool) : (s.digit d).symq.length ≤ s.symq.length + 1 := by
  rcases digit_cases s d with ⟨-, hd⟩ | ⟨-, -, hd⟩ | ⟨-, -, -, hd⟩ | ⟨x, -, -, -, hd⟩ <;>
    simp [hd, State.pushDigit]

theorem length_symq_digits_le (s : State) (ds : Digits) :
    (s.digits ds).symq.length ≤ s.symq.length + ds.length := by
  induction ds generalizing s with
  | nil => simp
  | cons d ds ih =>
    have h₁ := length_symq_digit_le s d
    have h₂ := ih (s.digit d)
    simp only [digits_cons, List.length_cons]
    omega

theorem Effect.memoriesOk {i : Instr} {s u : State} (w : Effect s i u) (h : s.MemoriesOk) : u.MemoriesOk := by
  obtain ⟨hf, hc⟩ := h
  cases w with
  | sreset => exact ⟨Memory.wf_nil, Memory.wf_nil⟩
  | clrfreq => exact ⟨Memory.wf_nil, hc⟩
  | incfreq => exact ⟨wf_freq_setFreqAt hf _ _, hc⟩
  | setfreq => exact ⟨wf_freq_setFreqAt hf _ _, hc⟩
  | derive => exact ⟨hf, wf_tableOf _⟩
  | clrct => exact ⟨hf, Memory.wf_nil⟩
  | wrctl => exact ⟨hf, wf_ct_setCtAt hc _ _⟩
  | wrctw => exact ⟨hf, wf_ct_setCtAt hc _ _⟩
  | dec =>
    obtain ⟨a, l, o, q, hd⟩ := digits_eq_setAcc_setSymq s _
    exact hd ▸ ⟨hf, hc⟩
  | _ => exact ⟨hf, hc⟩

theorem Effect.queuesOk {i : Instr} {s u : State} (w : Effect s i u) (h : s.QueuesOk) : u.QueuesOk := by
  obtain ⟨ho, hs⟩ := h
  cases w with
  | sreset => exact ⟨Nat.zero_le _, Nat.zero_le _⟩
  | enc _ hf =>
    refine ⟨?_, hs⟩
    simp only [setOutq_outq, List.length_append, State.codeOf, length_entryCode]
    simp only [Config.outqBits] at hf
    omega
  | rdout => exact ⟨(by simpa using Nat.le_add_right_of_le ho), hs⟩
  | clrout => exact ⟨Nat.zero_le _, hs⟩
  | dec hn =>
    refine ⟨?_, (length_symq_digits_le _ _).trans ?_⟩
    · obtain ⟨a, l, o, q, hd⟩ := digits_eq_setAcc_setSymq s _
      exact hd ▸ ho
    · rw [length_dataDigits]
      simp only [Config.symqDepth] at hn
      omega
  | popsym hq =>
    rw [hq, List.length_cons] at hs
    exact ⟨ho, Nat.le_of_succ_le hs⟩
  | decrst => exact ⟨ho, Nat.zero_le _⟩
  | _ => exact ⟨ho, hs⟩

theorem Effect.accOk {i : Instr} {s u : State} (w : Effect s i u) (h : s.AccOk) : u.AccOk := by
  cases w with
  | sreset => exact ⟨rfl, fun he => absurd he Bool.false_ne_true⟩
  | dec => exact digits_accOk h _
  | decrst => exact ⟨rfl, fun he => absurd he Bool.false_ne_true⟩
  | _ => exact h

/-- BUILD's leaves are the counted symbols, at most 256, so its descriptor fits its fields; the canonical form of FREQ enters
here (log 9). -/
theorem Effect.descriptorOk {i : Instr} {s u : State} (w : Effect s i u) (hm : s.MemoriesOk) (h : s.DescriptorOk) :
    u.DescriptorOk := by
  cases w with
  | sreset => exact ⟨fun _ => ⟨rfl, rfl, rfl⟩, fun he => absurd he Bool.false_ne_true⟩
  | build hl =>
    obtain ⟨hf, -⟩ := hm
    exact installTree_descriptorOk s hl (by simpa [State.leaves] using Memory.length_le hf)
  | dec =>
    obtain ⟨a, l, o, q, hd⟩ := digits_eq_setAcc_setSymq s _
    exact hd ▸ h
  | _ => exact h

/-- An error's code is neither 0 nor reserved (R31, R230). -/
theorem finishErr_statusOk (s : State) (e : Error) : (s.finishErr e).StatusOk := by
  obtain ⟨hpos, hle⟩ := code_bounds e
  refine ⟨?_, hle⟩
  have hne : e.code ≠ 0 := fun h => by simp [h] at hpos
  simpa using hne

theorem finishOk_statusOk (s : State) : s.finishOk.StatusOk := by simp [State.StatusOk]

/-- A completion keeps the invariant; it runs only outside the reset sequence. -/
theorem complete_inv {s t : State} (h : s.Inv) (hr : s.resetting = false) (hc : complete s = .next t) : t.Inv := by
  obtain ⟨-, hm, hq, ha, hd, -⟩ := h
  have hreset : t.ResetOk := fun he => absurd ((complete_resetting hc).symm.trans he) (by simp [hr])
  rcases complete_next_cases hc with ⟨e, -, rfl⟩ | ⟨i, u, -, hu, rfl⟩
  · exact ⟨finishErr_statusOk s e, hm, hq, ha, hd, hreset⟩
  · exact ⟨finishOk_statusOk u, hu.memoriesOk hm, hu.queuesOk hq, hu.accOk ha, hu.descriptorOk hm hd, hreset⟩

/-- Every move keeps the invariant: the host's and the reset input's moves write nothing it speaks of but BUSY. -/
theorem Moves.inv {s t : State} (w : Moves s t) (h : s.Inv) : t.Inv := by
  have ⟨hs, hm, hq, ha, hd, _⟩ := h
  cases w with
  | endsReset => exact reset_inv
  | completes _ hr _ hc =>
    exact complete_inv (s := s.setTurns s.turns.tail) h hr hc
  | beginsReset => exact ⟨hs, hm, hq, ha, hd, fun _ => rfl⟩
  | acceptsCmd => exact ⟨hs, hm, hq, ha, hd, fun _ => rfl⟩
  | _ => exact h

/-- Settles O58: the invariant holds after every move. -/
theorem stepKeepsTheInvariant : Obligations.StepKeepsTheInvariant :=
  fun _ _ h hs => (moves_of_step hs).inv h

end Sys2Proof.Machine
end

section
/-! SUPPORT. The family of 20_memory.md: which register an offset selects, what the bits of a read register are, the step of a
host access, and the one way a step can stop. -/

namespace Sys2Proof.Machine

/-! ## The register window -/

/-- Every register but the reserved words lies at one offset (R23). -/
theorem eq_offset_of_regAt {off : BitVec 8} {r : Reg} (h : regAt off = r) (hr : r ≠ .reserved) : off = r.offset := by
  subst h
  exact (offset_regAt hr).symm

theorem Reg.offset_le (r : Reg) : r.offset.toNat ≤ 0x28 := by cases r <;> decide

/-- The words above TREE are reserved (R38). -/
theorem regAt_eq_reserved_of_le {off : BitVec 8} (h : 0x2C ≤ off.toNat) : regAt off = .reserved := by
  by_contra hr
  have hle := Reg.offset_le (regAt off)
  rw [offset_regAt hr] at hle
  omega

/-- The offsets of the starred registers (R39, R63). -/
theorem starred_regAt_iff (off : BitVec 8) :
    (regAt off).starred = true ↔ off = 0x18 ∨ off = 0x1C ∨ off = 0x20 ∨ off = 0x24 ∨ off = 0x28 := by
  constructor
  · intro h
    cases hr : regAt off <;> simp [hr, Reg.starred] at h <;> simp [eq_offset_of_regAt hr, Reg.offset]
  · rintro (rfl | rfl | rfl | rfl | rfl) <;> rfl

/-- A read of a starred register while BUSY = 1 takes one draw, and no other read takes any (R39; log 3). -/
theorem drawsOf_regAt (s : State) (off : BitVec 8) :
    s.drawsOf (regAt off) =
      if s.busy = true ∧ (off = 0x18 ∨ off = 0x1C ∨ off = 0x20 ∨ off = 0x24 ∨ off = 0x28) then 1 else 0 := by
  simp only [State.drawsOf, Bool.and_eq_true, starred_regAt_iff]

/-- Settles O18: inside the window the offset is the distance from the base, and it fits 8 bits. -/
theorem windowAddressMap : Obligations.WindowAddressMap := by
  constructor
  · intro base off
    have hin : base ≤ base + off.toNat ∧ base + off.toNat < base + Config.winBytes :=
      ⟨Nat.le_add_right _ _, Nat.add_lt_add_left off.isLt base⟩
    simp [windowOffset, hin]
  · intro base addr h
    have hout : ¬ (base ≤ addr ∧ addr < base + Config.winBytes) := by simp only [Config.winBytes]; omega
    exact if_neg hout

/-! ## The fields of the registers read -/

/-- A field of a concatenation, between the bits above it and the bits below it. -/
theorem extractLsb'_append_append_middle {u v w : Nat} (hi : BitVec u) (x : BitVec v) (lo : BitVec w) :
    (hi ++ x ++ lo).extractLsb' w v = x := by
  rw [BitVec.extractLsb'_append_eq_of_le le_rfl, Nat.sub_self, BitVec.extractLsb'_append_eq_right]

section Fields

variable (s : State) (v : BitVec 3)

/-- STATUS bits 7:4 are ECODE (R29). -/
theorem statusWith_ecode_field : (s.statusWith v).extractLsb' 4 4 = s.ecode := by
  ext i hi
  simpa [hi] using statusWith_ecode s v hi

/-- STATUS bits 10:8 are the views (R29, R34). -/
theorem statusWith_views_field : (s.statusWith v).extractLsb' 8 3 = v := by
  ext i hi
  simpa [hi] using statusWith_views s v hi

/-- STATUS bits 31:11 read 0 (R29). -/
theorem statusWith_zero_field : (s.statusWith v).extractLsb' 11 21 = 0 := by
  unfold State.statusWith
  iterate 6 rw [BitVec.extractLsb'_append_eq_of_le (by decide)]
  exact BitVec.extractLsb'_eq_self

/-- Bits 8, 9 and 10 of STATUS while BUSY = 0 (R34). -/
theorem status_views_bits :
    s.status.getLsbD 8 = s.treeValid ∧ s.status.getLsbD 9 = s.accNe ∧ s.status.getLsbD 10 = s.accOvf := by
  have bit (j : Nat) (h : j < 3) : s.status.getLsbD (8 + j) = s.statusViews.getLsbD j := statusWith_views s _ h
  refine ⟨(bit 0 (by decide)).trans ?_, (bit 1 (by decide)).trans ?_, (bit 2 (by decide)).trans ?_⟩ <;>
    (simp only [State.statusViews, BitVec.getLsbD_append]; simp)

theorem accNe_iff : s.accNe = true ↔ s.accLen ≠ 0 ∨ s.accOvf = true := by simp [State.accNe]

/-- The five fields of LEVELS (R36). -/
theorem levels_fields :
    s.levels.extractLsb' 0 11 = BitVec.ofNat 11 s.outq.length ∧ s.levels.extractLsb' 11 5 = 0 ∧
      s.levels.extractLsb' 16 6 = BitVec.ofNat 6 s.symq.length ∧ s.levels.extractLsb' 22 2 = 0 ∧
      s.levels.extractLsb' 24 8 = s.accLen := by
  unfold State.levels
  refine ⟨BitVec.extractLsb'_append_eq_right, extractLsb'_append_append_middle .., ?symq, ?zero, ?accLen⟩
  case symq =>
    rw [BitVec.extractLsb'_append_eq_of_le (by decide)]
    exact extractLsb'_append_append_middle ..
  case zero =>
    iterate 2 rw [BitVec.extractLsb'_append_eq_of_le (by decide)]
    exact extractLsb'_append_append_middle ..
  case accLen =>
    iterate 3 rw [BitVec.extractLsb'_append_eq_of_le (by decide)]
    exact BitVec.extractLsb'_append_eq_left

/-- The four fields of TREE (R37). -/
theorem tree_fields :
    s.tree.extractLsb' 0 10 = s.nodeCount ∧ s.tree.extractLsb' 10 6 = 0 ∧ s.tree.extractLsb' 16 9 = s.root ∧
      s.tree.extractLsb' 25 7 = 0 := by
  unfold State.tree
  refine ⟨BitVec.extractLsb'_append_eq_right, extractLsb'_append_append_middle .., ?root, ?zero⟩
  case root =>
    rw [BitVec.extractLsb'_append_eq_of_le (by decide)]
    exact extractLsb'_append_append_middle ..
  case zero =>
    iterate 2 rw [BitVec.extractLsb'_append_eq_of_le (by decide)]
    exact BitVec.extractLsb'_append_eq_left

end Fields

/-! ## A host access as a step -/

/-- The block answers exactly the aligned 32-bit accesses (R62). -/
theorem answered_iff (off : BitVec 8) (width : Nat) : answered off width = true ↔ width = 4 ∧ off.toNat % 4 = 0 := by
  simp [answered]

theorem answered_eq_false_iff (off : BitVec 8) (width : Nat) :
    answered off width = false ↔ width ≠ 4 ∨ off.toNat % 4 ≠ 0 := by
  rw [← Bool.not_eq_true, answered_iff, not_and_or]

theorem step_host {s : State} {a : Access} {ts : List Turn} (h : s.turns = .host a :: ts) :
    step s = (s.setTurns ts).hostAccess a := by
  simp only [step, advance, h, serve]

theorem step_read {s : State} {off : BitVec 8} {ts : List Turn} (h : s.turns = .host (.read off 4) :: ts)
    (ha : off.toNat % 4 = 0) : step s = .next ((s.setTurns ts).hostRead off) := by
  rw [step_host h, hostAccess_read ((answered_iff off 4).2 ⟨rfl, ha⟩)]

theorem step_write {s : State} {off : BitVec 8} {v : Word} {ts : List Turn} (h : s.turns = .host (.write off 4 v) :: ts)
    (ha : off.toNat % 4 = 0) : step s = .next ((s.setTurns ts).hostWrite off v) := by
  rw [step_host h, hostAccess_write ((answered_iff off 4).2 ⟨rfl, ha⟩)]

/-- Writes elsewhere than DATA, CMD and STATUS are ignored (R23, R38, R64). -/
theorem hostWrite_ignored (s : State) {off : BitVec 8} (v : Word) (hd : off ≠ 0x10) (hc : off ≠ 0x14) (hs : off ≠ 0x18) :
    s.hostWrite off v = s := by
  rcases hostWrite_cases s off v with ⟨hr, -⟩ | ⟨hr, -⟩ | ⟨hr, -⟩ | ⟨hr, -⟩ | h
  · exact absurd (eq_offset_of_regAt hr (by decide)) hd
  · exact absurd (eq_offset_of_regAt hr (by decide)) hc
  · exact absurd (eq_offset_of_regAt hr (by decide)) hc
  · exact absurd (eq_offset_of_regAt hr (by decide)) hs
  · exact h

/-- STATUS's two flags are written by 1 to clear (R29, R32, R33). -/
theorem writeStatus_eq (s : State) (v : Word) :
    s.writeStatus v = { s with
      esticky := if v.getLsbD 2 then false else s.esticky, ovr := if v.getLsbD 3 then false else s.ovr } := by
  unfold State.writeStatus
  cases v.getLsbD 2 <;> cases v.getLsbD 3 <;> simp

/-- Settles O16: the step is the write of the register at the offset. -/
theorem hostWriteEffects : Obligations.HostWriteEffects := by
  intro s off v ts ht ha
  rw [step_write ht ha]
  refine ⟨?data, ?accepted, ?dropped, ?status, ?ignored⟩
  case data => rintro rfl; rfl
  case accepted =>
    rintro rfl hb
    exact congrArg _ (if_neg (by simp [hb]))
  case dropped =>
    rintro rfl hb
    exact congrArg _ (if_pos hb)
  case status =>
    rintro rfl
    exact congrArg _ (writeStatus_eq (s.setTurns ts) v)
  case ignored =>
    intro hd hc hs
    rw [hostWrite_ignored _ v hd hc hs]
    rfl

/-! ## What a host read returns -/

/-- A starred register read whole is a draw while BUSY = 1 and its value while BUSY = 0 (R39). -/
theorem starred_of_busy {s : State} (v : Word) (h : s.busy = true) : s.starred v = Config.draw s.draws := if_pos h

theorem starred_of_idle {s : State} (v : Word) (h : s.busy = false) : s.starred v = v := if_neg (by simp [h])

theorem readReg_status_of_busy {s : State} (h : s.busy = true) :
    s.readReg .status = s.statusWith ((Config.draw s.draws).extractLsb' 8 3) := by
  simp [State.readReg, State.readViews, h, State.drawNow]

theorem readReg_status_of_idle {s : State} (h : s.busy = false) : s.readReg .status = s.status := by
  simp [State.readReg, State.readViews, h, State.status]

/-- Settles O15: the value is that of the register at the offset, and the register's fields are those of its word. -/
theorem hostReadValues : Obligations.HostReadValues := by
  intro s off ts ht ha
  refine ⟨s.readReg (regAt off), s.drawsOf (regAt off), step_read ht ha, ?id, ?param, ?param2, ?data, ?cmd, ?status,
    ?result0, ?result1, ?levels, ?tree, ?reserved, drawsOf_regAt s off⟩
  case id => rintro rfl; rfl
  case param => rintro rfl; rfl
  case param2 => rintro rfl; rfl
  case data => rintro rfl; rfl
  case cmd => rintro rfl; rfl
  case status =>
    rintro rfl
    refine ⟨statusWith_busy s _, statusWith_err s _, statusWith_esticky s _, statusWith_ovr s _,
      statusWith_ecode_field s _, statusWith_zero_field s _, fun hb => ?_, fun hb => ?_⟩
    · obtain ⟨htree, hne, hovf⟩ := status_views_bits s
      rw [show regAt 0x18 = .status from rfl, readReg_status_of_idle hb, hne]
      exact ⟨htree, accNe_iff s, hovf⟩
    · rw [show regAt 0x18 = .status from rfl, readReg_status_of_busy hb]
      exact statusWith_views_field s _
  case result0 => rintro rfl; rfl
  case result1 => rintro rfl; rfl
  case levels =>
    rintro rfl
    refine ⟨starred_of_busy s.levels, fun hb => ?_⟩
    rw [show s.readReg (regAt 0x24) = s.levels from starred_of_idle _ hb]
    exact levels_fields s
  case tree =>
    rintro rfl
    refine ⟨starred_of_busy s.tree, fun hb => ?_⟩
    rw [show s.readReg (regAt 0x28) = s.tree from starred_of_idle _ hb]
    exact tree_fields s
  case reserved =>
    intro h
    have hr : regAt off = .reserved := h.elim (fun h => h ▸ rfl) regAt_eq_reserved_of_le
    rw [hr]
    rfl

/-! ## How a step can stop -/

/-- Every completion answers a next state: an error is a status, not a stop (R131, R233). -/
theorem complete_answers (s : State) : ∃ t, complete s = .next t := by
  rcases complete_cases s with ⟨-, hc⟩ | ⟨i, -, hc⟩
  · exact ⟨_, hc⟩
  · rcases exec_cases i s with ⟨e, -, hx⟩ | ⟨u, -, hx⟩
    · exact ⟨_, hc.trans hx⟩
    · exact ⟨_, hc.trans hx⟩

theorem engineTurn_answers (s : State) : ∃ t, engineTurn s = .next t := by
  rcases engineTurn_cases s with ⟨-, h⟩ | ⟨-, -, h⟩ | ⟨-, -, h⟩
  · exact ⟨_, h⟩
  · exact h ▸ complete_answers s
  · exact ⟨_, h⟩

/-- A step answers, or it takes a host access from the turns (R238). -/
theorem step_answers_or_host (s : State) : (∃ t, step s = .next t) ∨ ∃ a ts, s.turns = .host a :: ts := by
  rcases step_cases s with ⟨-, h⟩ | ⟨ts, -, h⟩ | ⟨ts, -, h⟩ | ⟨a, ts, ht, -⟩
  · exact .inl (h ▸ engineTurn_answers s)
  · exact .inl (h ▸ engineTurn_answers _)
  · exact .inl ⟨_, h⟩
  · exact .inr ⟨a, ts, ht⟩

/-- An access faults exactly where the block does not answer it, with that access's bus error (R62). -/
theorem hostAccess_eq_fault_iff (s : State) (a : Access) (f : Fault) :
    s.hostAccess a = .fault f ↔ ∃ off width, (a = .read off width ∨ ∃ v, a = .write off width v) ∧
      (width ≠ 4 ∨ off.toNat % 4 ≠ 0) ∧ f = .busError off width := by
  simp only [← answered_eq_false_iff]
  cases a with
  | read off width => cases h : answered off width <;> simp [State.hostAccess, h, eq_comm (b := f)]
  | write off width v => cases h : answered off width <;> simp [State.hostAccess, h, eq_comm (b := f)]

theorem hostAccess_ne_refused (s : State) (a : Access) (r : Refusal) : s.hostAccess a ≠ .refused r := by
  rcases hostAccess_cases s a with ⟨_, _, -, -, h⟩ | ⟨_, _, _, -, -, h⟩ | ⟨_, _, -, h⟩ <;> simp [h]

/-- A step faults exactly as the host access it takes does (R238). -/
theorem step_eq_fault_iff (s : State) (f : Fault) :
    step s = .fault f ↔ ∃ a ts, s.turns = .host a :: ts ∧ (s.setTurns ts).hostAccess a = .fault f := by
  constructor
  · intro h
    rcases step_answers_or_host s with ⟨t, hs⟩ | ⟨a, ts, ht⟩
    · simp [hs] at h
    · exact ⟨a, ts, ht, step_host ht ▸ h⟩
  · rintro ⟨a, ts, ht, h⟩
    rw [step_host ht, h]

/-- Settles O17: only a host access can stop a step, and it stops it with its bus error. -/
theorem onlyBusErrorsStopTheMachine : Obligations.OnlyBusErrorsStopTheMachine := by
  constructor
  · intro s f
    rw [step_eq_fault_iff]
    constructor
    · rintro ⟨a, ts, ht, h⟩
      obtain ⟨off, width, rfl | ⟨v, rfl⟩, hw, hf⟩ := (hostAccess_eq_fault_iff _ a f).1 h
      · exact ⟨off, width, ts, .inl ht, hw, hf⟩
      · exact ⟨off, width, ts, .inr ⟨v, ht⟩, hw, hf⟩
    · rintro ⟨off, width, ts, ht | ⟨v, ht⟩, hw, hf⟩
      · exact ⟨_, ts, ht, (hostAccess_eq_fault_iff _ _ f).2 ⟨off, width, .inl rfl, hw, hf⟩⟩
      · exact ⟨_, ts, ht, (hostAccess_eq_fault_iff _ _ f).2 ⟨off, width, .inr ⟨v, rfl⟩, hw, hf⟩⟩
  · intro s r
    rcases step_answers_or_host s with ⟨t, hs⟩ | ⟨a, ts, ht⟩
    · simp [hs]
    · rw [step_host ht]
      exact hostAccess_ne_refused _ a r

end Sys2Proof.Machine
end

section
/-! SUPPORT. The family of 30_encoding.md: fixed bits and free fields, the rows of the opcode map and their formats, decoding
against encoding, the assembler, and what a host's pseudo-instructions do. -/

namespace Sys2Proof.Machine

/-! ## Fixed bits and a free field -/

/-- The mask that leaves the low `k` bits of a word free (R102). -/
def fixedBits (k : Nat) : Word := BitVec.allOnes 32 <<< k

theorem getLsbD_fixedBits (k : Nat) {j : Nat} (hj : j < 32) : (fixedBits k).getLsbD j = !decide (j < k) := by
  have : j - k < 32 := by omega
  simp [fixedBits, hj, this, -BitVec.getLsbD_eq_getElem, -BitVec.reduceAllOnes]

/-- A word is its fixed bits and its free field. -/
theorem fixedBits_or_field (w : Word) (k : Nat) : w &&& fixedBits k ||| (w.setWidth k).setWidth 32 = w := by
  refine BitVec.eq_of_getLsbD_eq fun j hj => ?_
  simp only [BitVec.getLsbD_or, BitVec.getLsbD_and, BitVec.getLsbD_setWidth, getLsbD_fixedBits k hj, hj]
  cases decide (j < k) <;> simp

/-- A field put beside fixed bits leaves them as they are. -/
theorem fixed_of_or_field {p : Word} {k : Nat} (hp : p &&& fixedBits k = p) (x : BitVec k) :
    (p ||| x.setWidth 32) &&& fixedBits k = p := by
  conv_rhs => rw [← hp]
  refine BitVec.eq_of_getLsbD_eq fun j hj => ?_
  simp only [BitVec.getLsbD_or, BitVec.getLsbD_and, BitVec.getLsbD_setWidth, getLsbD_fixedBits k hj]
  rcases Nat.lt_or_ge j k with h | h
  · simp [h]
  · simp [BitVec.getLsbD_of_ge x j h]

/-- A field put beside fixed bits is read back. -/
theorem field_of_or_field {p : Word} {k : Nat} (hp : p &&& fixedBits k = p) (w : Word) :
    (p ||| (w.setWidth k).setWidth 32).setWidth k = w.setWidth k := by
  rw [← hp]
  refine BitVec.eq_of_getLsbD_eq fun j hj => ?_
  rcases Nat.lt_or_ge j 32 with h | h
  · simp only [BitVec.getLsbD_or, BitVec.getLsbD_and, BitVec.getLsbD_setWidth, getLsbD_fixedBits k h, hj, h]
    simp
  · simp [BitVec.getLsbD_of_ge _ _ h]

/-- The fixed bits of a word as a number: the word without its remainder modulo `2 ^ k`. -/
theorem toNat_and_fixedBits (w : Word) (k : Nat) : (w &&& fixedBits k).toNat = w.toNat / 2 ^ k * 2 ^ k := by
  have h : w >>> k <<< k = w &&& fixedBits k := BitVec.shiftLeft_ushiftRight ..
  rw [← h, BitVec.toNat_shiftLeft, BitVec.toNat_ushiftRight, Nat.shiftLeft_eq, Nat.shiftRight_eq_div_pow,
    Nat.mod_eq_of_lt (lt_of_le_of_lt (Nat.div_mul_le_self _ _) w.isLt)]

/-- The fixed bits of `w` are the opcode `o` and 0 below it exactly where `w` has that opcode and its low 24 bits are a field of
`k` bits (R102, R106). -/
theorem and_fixedBits_eq_iff {k o : Nat} (hk : k ≤ 24) (ho : o < 2 ^ 8) (w : Word) :
    w &&& fixedBits k = BitVec.ofNat 32 (o * 2 ^ 24) ↔ w.toNat / 2 ^ 24 = o ∧ w.toNat % 2 ^ 24 < 2 ^ k := by
  have hk' : 2 ^ 24 = 2 ^ (24 - k) * 2 ^ k := by rw [← pow_add, Nat.sub_add_cancel hk]
  have hle : 2 ^ k ≤ 2 ^ 24 := Nat.pow_le_pow_right (by decide) hk
  rw [← BitVec.toNat_inj, toNat_and_fixedBits, BitVec.toNat_ofNat, Nat.mod_eq_of_lt (by omega)]
  constructor
  · intro h
    have := Nat.div_mul_le_self w.toNat (2 ^ k)
    have := Nat.lt_div_mul_add (a := w.toNat) (Nat.two_pow_pos k)
    omega
  · rintro ⟨ho, hlt⟩
    have hq : w.toNat / 2 ^ k = o * 2 ^ (24 - k) := by
      apply Nat.div_eq_of_lt_le
      · rw [mul_assoc, ← hk']
        omega
      · rw [Nat.succ_mul, mul_assoc, ← hk']
        omega
    rw [hq, mul_assoc, ← hk']

/-! ## The rows of the opcode map -/

/-- `HasFormat r f`: the row `r` is the row `f` of the formats, with its opcode and its number of free bits; its command is
read from the free field alone, is well-formed, and its word is the match with that field (R102, R106, R112). -/
structure HasFormat (r : OpRow) (f : Nat × Nat) : Prop where
  pattern : r.pattern = BitVec.ofNat 32 (f.1 * 2 ^ 24)
  mask : r.mask = fixedBits f.2
  field : ∀ v w : Word, v.setWidth f.2 = w.setWidth f.2 → r.command v = r.command w
  wf : ∀ w, (r.command w).wf = true
  word : ∀ w, encode (r.command w) = r.pattern ||| (w.setWidth f.2).setWidth 32

/-- WIDX and SYM side by side are the low 11 bits (R103). -/
theorem fieldWidx_append_fieldSym (w : Word) : fieldWidx w ++ fieldSym w = w.setWidth 11 := by
  refine BitVec.eq_of_getLsbD_eq fun j hj => ?_
  simp only [fieldWidx, fieldSym, BitVec.getLsbD_append, BitVec.getLsbD_extractLsb', BitVec.getLsbD_setWidth, hj]
  by_cases h : j < 8
  · simp [h]
  · have h₃ : j - 8 < 3 := by omega
    have h₈ : 8 + (j - 8) = j := by omega
    simp [h, h₃, h₈]

theorem fieldSym_eq_setWidth (w : Word) : fieldSym w = (w.setWidth 11).setWidth 8 :=
  (BitVec.setWidth_setWidth_of_le w (by decide)).symm

theorem fieldWidx_eq_extractLsb' (w : Word) : fieldWidx w = (w.setWidth 11).extractLsb' 8 3 := by
  rw [← fieldWidx_append_fieldSym, BitVec.extractLsb'_append_eq_left]

/-- A word of format SW holds WIDX and SYM in its low 11 bits (R103, R112). -/
theorem encodeSW_eq (p : Word) (x : Sym) (k : BitVec 3) : encodeSW p x k = p ||| (k ++ x).setWidth 32 := by
  rw [encodeSW, BitVec.or_assoc, BitVec.setWidth_append_eq_shiftLeft_setWidth_or, BitVec.or_comm (x.setWidth 32)]

theorem countOk_iff (n : Nat) : countOk n = true ↔ 1 ≤ n ∧ n ≤ 32 := by simp [countOk]

/-- The count of a word is one of format C (R104). -/
theorem countOk_fieldCount (w : Word) : countOk (fieldCount w) = true := by
  have h : (w.setWidth 5).toNat < 32 := (w.setWidth 5).isLt
  exact (countOk_iff _).2 ⟨Nat.le_add_left 1 _, h⟩

section Formats

variable {p : Word} {o : Nat} (hp : p = BitVec.ofNat 32 (o * 2 ^ 24))
include hp

/-- Format N: no operand. -/
theorem hasFormat_N {i : Instr} (hw : i.wf = true) (he : encode i = p) :
    HasFormat ⟨p, 0xFFFFFFFF#32, fun _ => i⟩ (o, 0) where
  pattern := hp
  mask := show 0xFFFFFFFF#32 = fixedBits 0 by decide
  field _ _ _ := rfl
  wf _ := hw
  word w := by simp [he, BitVec.of_length_zero]

/-- Format S: a symbol. -/
theorem hasFormat_S (c : Sym → Instr) (hw : ∀ x, (c x).wf = true) (he : ∀ x, encode (c x) = encodeS p x) :
    HasFormat ⟨p, 0xFFFFFF00#32, fun w => c (fieldSym w)⟩ (o, 8) where
  pattern := hp
  mask := show 0xFFFFFF00#32 = fixedBits 8 by decide
  field _ _ h := congrArg c h
  wf _ := hw _
  word _ := he _

/-- Format SW: a symbol and a word index. -/
theorem hasFormat_SW (c : Sym → BitVec 3 → Instr) (hw : ∀ x k, (c x k).wf = true)
    (he : ∀ x k, encode (c x k) = encodeSW p x k) :
    HasFormat ⟨p, 0xFFFFF800#32, fun w => c (fieldSym w) (fieldWidx w)⟩ (o, 11) where
  pattern := hp
  mask := show 0xFFFFF800#32 = fixedBits 11 by decide
  field v w h := by
    have hx : fieldSym v = fieldSym w := by
      rw [fieldSym_eq_setWidth, fieldSym_eq_setWidth]
      exact congrArg _ h
    have hk : fieldWidx v = fieldWidx w := by
      rw [fieldWidx_eq_extractLsb', fieldWidx_eq_extractLsb']
      exact congrArg _ h
    exact congrArg₂ c hx hk
  wf _ := hw _ _
  word w := by rw [he, encodeSW_eq, fieldWidx_append_fieldSym]

/-- Format NI: a node index. -/
theorem hasFormat_NI (c : NodeIx → Instr) (hw : ∀ x, (c x).wf = true) (he : ∀ x, encode (c x) = encodeNI p x) :
    HasFormat ⟨p, 0xFFFFFE00#32, fun w => c (fieldNode w)⟩ (o, 9) where
  pattern := hp
  mask := show 0xFFFFFE00#32 = fixedBits 9 by decide
  field _ _ h := congrArg c h
  wf _ := hw _
  word _ := he _

/-- Format C: a count from 1 to 32. -/
theorem hasFormat_C (c : Nat → Instr) (hw : ∀ n, (c n).wf = countOk n) (he : ∀ n, encode (c n) = encodeC p n) :
    HasFormat ⟨p, 0xFFFFFFE0#32, fun w => c (fieldCount w)⟩ (o, 5) where
  pattern := hp
  mask := show 0xFFFFFFE0#32 = fixedBits 5 by decide
  field _ _ h := congrArg (fun x : BitVec 5 => c (x.toNat + 1)) h
  wf w := (hw _).trans (countOk_fieldCount w)
  word w := by
    rw [he, encodeC, fieldCount, Nat.add_sub_cancel, BitVec.ofNat_toNat, BitVec.setWidth_eq]

end Formats

/-- The rows of R106 are those of the formats, one by one. -/
theorem opRows_haveFormats : List.Forall₂ HasFormat opRows formatRows := by
  simp only [opRows, rowsLow, rowsTable, rowsCodec, formatRows, List.cons_append, List.nil_append, List.forall₂_cons]
  exact ⟨
    hasFormat_N (by decide) rfl rfl, hasFormat_N (by decide) rfl rfl, hasFormat_N (by decide) rfl rfl,
    hasFormat_S (by decide) .incfreq (fun _ => rfl) (fun _ => rfl),
    hasFormat_S (by decide) .setfreq (fun _ => rfl) (fun _ => rfl),
    hasFormat_S (by decide) .rdfreq (fun _ => rfl) (fun _ => rfl),
    hasFormat_N (by decide) rfl rfl,
    hasFormat_NI (by decide) .rdnode (fun _ => rfl) (fun _ => rfl),
    hasFormat_N (by decide) rfl rfl, hasFormat_N (by decide) rfl rfl,
    hasFormat_S (by decide) .wrctl (fun _ => rfl) (fun _ => rfl),
    hasFormat_SW (by decide) .wrctw (fun _ _ => rfl) (fun _ _ => rfl),
    hasFormat_S (by decide) .rdctl (fun _ => rfl) (fun _ => rfl),
    hasFormat_SW (by decide) .rdctw (fun _ _ => rfl) (fun _ _ => rfl),
    hasFormat_S (by decide) .enc (fun _ => rfl) (fun _ => rfl),
    hasFormat_C (by decide) .rdout (fun _ => rfl) (fun _ => rfl),
    hasFormat_N (by decide) rfl rfl,
    hasFormat_C (by decide) .dec (fun _ => rfl) (fun _ => rfl),
    hasFormat_N (by decide) rfl rfl, hasFormat_N (by decide) rfl rfl, hasFormat_N (by decide) rfl rfl, .nil⟩

/-! ## Legal words -/

/-- The opcodes assigned end at 0x14, and a format leaves free at most the 24 bits below the opcode (R106, R109). -/
theorem formatRows_bounds {f : Nat × Nat} (h : f ∈ formatRows) : f.1 < 0x15 ∧ f.2 ≤ 24 := by
  revert f
  decide

/-- In lists related one by one, each element has its partner. -/
theorem exists_mem_of_forall₂ {α β : Type} {R : α → β → Prop} {l : List α} {m : List β} (h : List.Forall₂ R l m)
    {a : α} (ha : a ∈ l) : ∃ b ∈ m, R a b := by
  induction h with
  | nil => simp at ha
  | @cons x y l m hxy _ ih =>
    rcases List.mem_cons.1 ha with rfl | ha
    · exact ⟨y, List.mem_cons_self, hxy⟩
    · obtain ⟨b, hb, hab⟩ := ih ha
      exact ⟨b, List.mem_cons_of_mem y hb, hab⟩

/-- Every row has one of the formats. -/
theorem exists_format {r : OpRow} (hr : r ∈ opRows) : ∃ f ∈ formatRows, HasFormat r f :=
  exists_mem_of_forall₂ opRows_haveFormats hr

/-- Every format is a row's. -/
theorem exists_row {f : Nat × Nat} (hf : f ∈ formatRows) : ∃ r ∈ opRows, HasFormat r f :=
  exists_mem_of_forall₂ opRows_haveFormats.flip hf

/-- A word encodes a row exactly where it has the row's opcode and its reserved bits are 0 (R106). -/
theorem HasFormat.hits_iff {r : OpRow} {f : Nat × Nat} (h : HasFormat r f) (hf : f ∈ formatRows) (w : Word) :
    r.hits w = true ↔ w.toNat / 2 ^ 24 = f.1 ∧ w.toNat % 2 ^ 24 < 2 ^ f.2 := by
  obtain ⟨ho, hk⟩ := formatRows_bounds hf
  rw [OpRow.hits, beq_iff_eq, h.pattern, h.mask, and_fixedBits_eq_iff hk (by omega)]

/-- A word is legal where it encodes some row (R107). -/
theorem isSome_decode_iff (w : Word) : (decode w).isSome = true ↔ ∃ r ∈ opRows, r.hits w = true := by
  rw [decode, Option.isSome_map, List.find?_isSome]

/-- Settles O3: a word decodes where it encodes a row, and each row is one of the formats. -/
theorem legalWordsExactly : Obligations.LegalWordsExactly := by
  intro w
  rw [isSome_decode_iff]
  constructor
  · rintro ⟨r, hr, hit⟩
    obtain ⟨f, hf, h⟩ := exists_format hr
    exact ⟨f, hf, (h.hits_iff hf w).1 hit⟩
  · rintro ⟨f, hf, hw⟩
    obtain ⟨r, hr, h⟩ := exists_row hf
    exact ⟨r, hr, (h.hits_iff hf w).2 hw⟩

/-- A word with a format's opcode and a reserved bit set is illegal: no other format has the opcode (R106, R110). -/
theorem decode_eq_none_of_reserved_bit {w : Word} {f : Nat × Nat} (hf : f ∈ formatRows) (ho : w.toNat / 2 ^ 24 = f.1)
    (hb : 2 ^ f.2 ≤ w.toNat % 2 ^ 24) : decode w = none := by
  rw [← Option.not_isSome_iff_eq_none, legalWordsExactly w]
  rintro ⟨g, hg, hgo, hgb⟩
  have hnodup : (formatRows.map Prod.fst).Nodup := by decide
  obtain rfl : f = g := List.inj_on_of_nodup_map hnodup hf hg (ho.symm.trans hgo)
  omega

/-- No format has an opcode of 0x15 or more (R109). -/
theorem decode_eq_none_of_reserved_opcode {w : Word} (h : 0x15 ≤ w.toNat / 2 ^ 24) : decode w = none := by
  rw [← Option.not_isSome_iff_eq_none, legalWordsExactly w]
  rintro ⟨f, hf, ho, -⟩
  obtain ⟨hlt, -⟩ := formatRows_bounds hf
  omega

/-- Settles O4: the opcode of the word is above those of the formats. -/
theorem reservedOpcodesAreIllegal : Obligations.ReservedOpcodesAreIllegal := by
  intro w h
  apply decode_eq_none_of_reserved_opcode
  rw [BitVec.extractLsb'_toNat, Nat.shiftRight_eq_div_pow] at h
  omega

/-! ## Decoding and encoding undo each other -/

/-- A row's match is 0 in the free bits (R106). -/
theorem pattern_and_mask {r : OpRow} (hr : r ∈ opRows) : r.pattern &&& r.mask = r.pattern := by
  revert r
  decide

/-- A word that hits a row has the opcode of the row's match. -/
theorem pattern_eq_of_hits {r : OpRow} {w : Word} (hr : r ∈ opRows) (h : r.hits w = true) :
    r.pattern = BitVec.ofNat 32 (w.toNat / 2 ^ 24 * 2 ^ 24) := by
  obtain ⟨f, hf, hrf⟩ := exists_format hr
  obtain ⟨ho, -⟩ := (hrf.hits_iff hf w).1 h
  rw [hrf.pattern, ho]

/-- A word hits one row at most (R106). -/
theorem eq_of_hits {q r : OpRow} {w : Word} (hq : q ∈ opRows) (hr : r ∈ opRows) (h₁ : q.hits w = true)
    (h₂ : r.hits w = true) : q = r := by
  have hnodup : (opRows.map OpRow.pattern).Nodup := by decide
  refine List.inj_on_of_nodup_map hnodup hq hr ?_
  rw [pattern_eq_of_hits hq h₁, pattern_eq_of_hits hr h₂]

/-- A word decodes to the command of the row it hits (R107). -/
theorem decode_eq_some_iff {w : Word} {i : Instr} :
    decode w = some i ↔ ∃ r ∈ opRows, r.hits w = true ∧ r.command w = i := by
  constructor
  · intro h
    obtain ⟨r, hr, hc⟩ := Option.map_eq_some_iff.1 h
    have hit := List.find?_some hr
    exact ⟨r, List.mem_of_find?_eq_some hr, hit, hc⟩
  · rintro ⟨r, hr, hit, hc⟩
    obtain ⟨j, hj⟩ := Option.isSome_iff_exists.1 ((isSome_decode_iff w).2 ⟨r, hr, hit⟩)
    obtain ⟨q, hq, hqj⟩ := Option.map_eq_some_iff.1 hj
    have hitq := List.find?_some hq
    obtain rfl := eq_of_hits (List.mem_of_find?_eq_some hq) hr hitq hit
    rw [hj, ← hqj, hc]

/-- Settles O2: the word of a row's command is the match with the free field, and a word that hits the row has the match in its
fixed bits. -/
theorem decodeThenEncode : Obligations.DecodeThenEncode := by
  intro w i h
  obtain ⟨r, hr, hit, rfl⟩ := decode_eq_some_iff.1 h
  obtain ⟨f, -, hf⟩ := exists_format hr
  refine ⟨hf.wf w, ?_⟩
  rw [OpRow.hits, beq_iff_eq, hf.mask] at hit
  rw [hf.word, ← hit, fixedBits_or_field]

/-- The word of a row's command decodes to it, whichever word the command was read from. -/
theorem decode_encode_command {r : OpRow} (hr : r ∈ opRows) (w : Word) :
    decode (encode (r.command w)) = some (r.command w) := by
  obtain ⟨f, -, hf⟩ := exists_format hr
  have hp : r.pattern &&& fixedBits f.2 = r.pattern := hf.mask ▸ pattern_and_mask hr
  rw [decode_eq_some_iff]
  refine ⟨r, hr, ?_, ?_⟩
  · rw [OpRow.hits, beq_iff_eq, hf.word, hf.mask, fixed_of_or_field hp]
  · rw [hf.word]
    exact hf.field _ _ (field_of_or_field hp w)

/-! ### Every well-formed command is a row's -/

@[simp] theorem fieldSym_setWidth (x : Sym) : fieldSym (x.setWidth 32) = x := by
  rw [fieldSym, BitVec.setWidth_setWidth_of_le x (by decide), BitVec.setWidth_eq]

@[simp] theorem fieldNode_setWidth (x : NodeIx) : fieldNode (x.setWidth 32) = x := by
  rw [fieldNode, BitVec.setWidth_setWidth_of_le x (by decide), BitVec.setWidth_eq]

theorem fieldSym_append (k : BitVec 3) (x : Sym) : fieldSym ((k ++ x).setWidth 32) = x := by
  rw [fieldSym, BitVec.setWidth_setWidth_of_le _ (by decide), BitVec.setWidth_append_eq_right]

theorem fieldWidx_append (k : BitVec 3) (x : Sym) : fieldWidx ((k ++ x).setWidth 32) = k := by
  rw [fieldWidx_eq_extractLsb', BitVec.setWidth_setWidth_of_le _ (by decide), BitVec.setWidth_eq,
    BitVec.extractLsb'_append_eq_left]

theorem fieldCount_ofNat {n : Nat} (h : countOk n = true) : fieldCount (BitVec.ofNat 32 (n - 1)) = n := by
  rw [countOk_iff] at h
  simp only [fieldCount, BitVec.toNat_setWidth, BitVec.toNat_ofNat]
  omega

/-- Every well-formed command is one that some row of R106 reads from some word. -/
theorem exists_command_eq {i : Instr} (h : i.wf = true) :
    ∃ k, ∃ hk : k < opRows.length, ∃ w, opRows[k].command w = i := by
  cases i with
  | nop => exact ⟨0, by decide, 0, rfl⟩
  | sreset => exact ⟨1, by decide, 0, rfl⟩
  | clrfreq => exact ⟨2, by decide, 0, rfl⟩
  | incfreq x => exact ⟨3, by decide, _, congrArg _ (fieldSym_setWidth x)⟩
  | setfreq x => exact ⟨4, by decide, _, congrArg _ (fieldSym_setWidth x)⟩
  | rdfreq x => exact ⟨5, by decide, _, congrArg _ (fieldSym_setWidth x)⟩
  | build => exact ⟨6, by decide, 0, rfl⟩
  | rdnode k => exact ⟨7, by decide, _, congrArg _ (fieldNode_setWidth k)⟩
  | derive => exact ⟨8, by decide, 0, rfl⟩
  | clrct => exact ⟨9, by decide, 0, rfl⟩
  | wrctl x => exact ⟨10, by decide, _, congrArg _ (fieldSym_setWidth x)⟩
  | wrctw x k => exact ⟨11, by decide, _, congrArg₂ _ (fieldSym_append k x) (fieldWidx_append k x)⟩
  | rdctl x => exact ⟨12, by decide, _, congrArg _ (fieldSym_setWidth x)⟩
  | rdctw x k => exact ⟨13, by decide, _, congrArg₂ _ (fieldSym_append k x) (fieldWidx_append k x)⟩
  | enc x => exact ⟨14, by decide, _, congrArg _ (fieldSym_setWidth x)⟩
  | rdout n => exact ⟨15, by decide, _, congrArg _ (fieldCount_ofNat h)⟩
  | clrout => exact ⟨16, by decide, 0, rfl⟩
  | dec n => exact ⟨17, by decide, _, congrArg _ (fieldCount_ofNat h)⟩
  | decend => exact ⟨18, by decide, 0, rfl⟩
  | popsym => exact ⟨19, by decide, 0, rfl⟩
  | decrst => exact ⟨20, by decide, 0, rfl⟩

/-- Settles O1: the command is a row's, and the word of a row's command decodes to it. -/
theorem encodeThenDecode : Obligations.EncodeThenDecode := by
  intro i h
  obtain ⟨k, hk, w, rfl⟩ := exists_command_eq h
  exact decode_encode_command (List.getElem_mem hk) w

/-- Settles O5: each of the ten commands is well-formed and has its word, so its word decodes to it. -/
theorem workedEncodings : Obligations.WorkedEncodings := by
  intro p hp
  have hwf : p.2.wf = true := by revert p; decide
  have hword : encode p.2 = p.1 := by revert p; decide
  exact ⟨hword ▸ encodeThenDecode p.2 hwf, hword⟩

/-! ## The assembler -/

/-- The number of operands of a mnemonic's format (R102, R112). -/
def operandCount : Mnemonic → Nat
  | .NOP | .SRESET | .CLRFREQ | .BUILD | .DERIVE | .CLRCT | .CLROUT | .DECEND | .POPSYM | .DECRST => 0
  | .WRCTW | .RDCTW => 2
  | _ => 1

/-- The operands taken are as many as the format has (R112). -/
theorem length_of_assemble {m : Mnemonic} {ops : List Nat} {i : Instr} (h : assemble m ops = some i) :
    ops.length = operandCount m := by
  unfold assemble at h
  split at h
  case h_22 => cases h
  all_goals rfl

/-- An operand list of the wrong length is refused (R112). -/
theorem assemble_eq_none {m : Mnemonic} {ops : List Nat} (h : ops.length ≠ operandCount m) : assemble m ops = none :=
  Option.eq_none_iff_forall_ne_some.2 fun _ ha => h (length_of_assemble ha)

theorem countOk_of_asmCount {n k : Nat} (h : asmCount n = some k) : countOk k = true := by
  obtain ⟨hn, hk⟩ := Option.ite_none_right_eq_some.1 h
  cases hk
  exact hn

/-- The operand checks let well-formed commands through only (R112). -/
theorem wf_of_assemble {m : Mnemonic} {ops : List Nat} {i : Instr} (h : assemble m ops = some i) : i.wf = true := by
  unfold assemble at h
  split at h
  -- RDOUT and DEC: a count
  case h_16 | h_18 =>
    obtain ⟨n, hn, rfl⟩ := Option.map_eq_some_iff.1 h
    exact countOk_of_asmCount hn
  -- WRCTW and RDCTW: a symbol and a word index
  case h_12 | h_14 =>
    obtain ⟨x, -, h⟩ := Option.bind_eq_some_iff.1 h
    obtain ⟨k, -, rfl⟩ := Option.map_eq_some_iff.1 h
    rfl
  -- a symbol or a node index
  case h_4 | h_5 | h_6 | h_8 | h_11 | h_13 | h_15 =>
    obtain ⟨x, -, rfl⟩ := Option.map_eq_some_iff.1 h
    rfl
  -- the operand lists of no format
  case h_22 => cases h
  -- no operand
  all_goals
    cases h
    rfl

section Clauses

variable {m : Mnemonic} {p : Word}

/-- Format N: the empty list is taken, and the word is the match. -/
theorem assembles_formatN {i : Instr} (hm : operandCount m = 0) (ha : assemble m [] = some i) (he : encode i = p) :
    (assemble m []).map encode = some p ∧ ∀ ops, ops.length ≠ 0 → assemble m ops = none := by
  refine ⟨?_, fun ops h => assemble_eq_none (hm ▸ h)⟩
  rw [ha, Option.map_some, he]

/-- Format S: a symbol is taken up to 255, and the word is match OR s. -/
theorem assembles_formatS (c : Sym → Instr) (hm : operandCount m = 1)
    (ha : ∀ x, assemble m [x] = (asmSym x).map c) (he : ∀ x, encode (c x) = encodeS p x) :
    (∀ x, (assemble m [x]).map encode = if x ≤ 255 then some (p ||| BitVec.ofNat 32 x) else none) ∧
      ∀ ops, ops.length ≠ 1 → assemble m ops = none := by
  refine ⟨fun x => ?_, fun ops h => assemble_eq_none (hm ▸ h)⟩
  rw [ha, asmSym]
  split
  · rw [Option.map_some, Option.map_some, he, encodeS, ofNat_setWidth_of_lt (by omega) (by decide)]
  · rfl

/-- Format SW: a symbol is taken up to 255 with a word index up to 7, and the word is match OR s OR (w << 8). -/
theorem assembles_formatSW (c : Sym → BitVec 3 → Instr) (hm : operandCount m = 2)
    (ha : ∀ x w, assemble m [x, w] = (asmSym x).bind fun x => (asmWidx w).map fun w => c x w)
    (he : ∀ x w, encode (c x w) = encodeSW p x w) :
    (∀ x w, (assemble m [x, w]).map encode =
        if x ≤ 255 ∧ w ≤ 7 then some (p ||| BitVec.ofNat 32 x ||| (BitVec.ofNat 32 w <<< 8)) else none) ∧
      ∀ ops, ops.length ≠ 2 → assemble m ops = none := by
  refine ⟨fun x w => ?_, fun ops h => assemble_eq_none (hm ▸ h)⟩
  rw [ha, asmSym, asmWidx]
  by_cases hx : x ≤ 255
  · by_cases hw : w ≤ 7
    · rw [if_pos hx, if_pos hw, if_pos ⟨hx, hw⟩, Option.bind_some, Option.map_some, Option.map_some, he, encodeSW,
        ofNat_setWidth_of_lt (by omega) (by decide), ofNat_setWidth_of_lt (by omega) (by decide)]
    · simp [hw]
  · simp [hx]

/-- Format NI: a node index is taken up to 511, and the word is match OR i. -/
theorem assembles_formatNI (c : NodeIx → Instr) (hm : operandCount m = 1)
    (ha : ∀ i, assemble m [i] = (asmNode i).map c) (he : ∀ i, encode (c i) = encodeNI p i) :
    (∀ i, (assemble m [i]).map encode = if i ≤ 511 then some (p ||| BitVec.ofNat 32 i) else none) ∧
      ∀ ops, ops.length ≠ 1 → assemble m ops = none := by
  refine ⟨fun i => ?_, fun ops h => assemble_eq_none (hm ▸ h)⟩
  rw [ha, asmNode]
  split
  · rw [Option.map_some, Option.map_some, he, encodeNI, ofNat_setWidth_of_lt (by omega) (by decide)]
  · rfl

/-- Format C: a count is taken from 1 to 32, and the word is match OR (n - 1). -/
theorem assembles_formatC (c : Nat → Instr) (hm : operandCount m = 1)
    (ha : ∀ n, assemble m [n] = (asmCount n).map c) (he : ∀ n, encode (c n) = encodeC p n) :
    (∀ n, (assemble m [n]).map encode = if 1 ≤ n ∧ n ≤ 32 then some (p ||| BitVec.ofNat 32 (n - 1)) else none) ∧
      ∀ ops, ops.length ≠ 1 → assemble m ops = none := by
  refine ⟨fun n => ?_, fun ops h => assemble_eq_none (hm ▸ h)⟩
  simp only [ha, asmCount, countOk_iff]
  split
  · rw [Option.map_some, Option.map_some, he, encodeC, ofNat_setWidth_of_lt (by omega) (by decide)]
  · rfl

end Clauses

/-- Settles O6: format by format, the operand checks are those of the fields and the word is the match with the fields in
place. -/
theorem assemblerIsSound : Obligations.AssemblerIsSound := by
  unfold Obligations.AssemblerIsSound
  simp only [List.forall_mem_cons]
  refine ⟨?sound, ?formatN, ?formatS, ?formatSW, ?formatNI, ?formatC⟩
  case sound => exact fun m ops i h => ⟨wf_of_assemble h, encodeThenDecode i (wf_of_assemble h)⟩
  case formatN =>
    exact ⟨assembles_formatN rfl rfl rfl, assembles_formatN rfl rfl rfl, assembles_formatN rfl rfl rfl,
      assembles_formatN rfl rfl rfl, assembles_formatN rfl rfl rfl, assembles_formatN rfl rfl rfl,
      assembles_formatN rfl rfl rfl, assembles_formatN rfl rfl rfl, assembles_formatN rfl rfl rfl,
      assembles_formatN rfl rfl rfl, List.forall_mem_nil _⟩
  case formatS =>
    exact ⟨assembles_formatS .incfreq rfl (fun _ => rfl) (fun _ => rfl),
      assembles_formatS .setfreq rfl (fun _ => rfl) (fun _ => rfl),
      assembles_formatS .rdfreq rfl (fun _ => rfl) (fun _ => rfl),
      assembles_formatS .wrctl rfl (fun _ => rfl) (fun _ => rfl),
      assembles_formatS .rdctl rfl (fun _ => rfl) (fun _ => rfl),
      assembles_formatS .enc rfl (fun _ => rfl) (fun _ => rfl), List.forall_mem_nil _⟩
  case formatSW =>
    exact ⟨assembles_formatSW .wrctw rfl (fun _ _ => rfl) (fun _ _ => rfl),
      assembles_formatSW .rdctw rfl (fun _ _ => rfl) (fun _ _ => rfl), List.forall_mem_nil _⟩
  case formatNI => exact assembles_formatNI .rdnode rfl (fun _ => rfl) (fun _ => rfl)
  case formatC =>
    exact ⟨assembles_formatC .rdout rfl (fun _ => rfl) (fun _ => rfl),
      assembles_formatC .dec rfl (fun _ => rfl) (fun _ => rfl), List.forall_mem_nil _⟩

/-! ## Acceptance and completion of a word -/

/-- A word that does not decode completes with ILLEGAL_COMMAND (R110). -/
theorem complete_of_decode_eq_none {s : State} (h : decode s.curCmd = none) : complete s = raise .illegalCommand s := by
  rcases complete_cases s with ⟨-, hc⟩ | ⟨i, hi, -⟩
  · exact hc
  · simp [h] at hi

theorem complete_of_decode_eq_some {s : State} {i : Instr} (h : decode s.curCmd = some i) : complete s = exec i s := by
  rcases complete_cases s with ⟨hn, -⟩ | ⟨j, hj, hc⟩
  · simp [h] at hn
  · obtain rfl : i = j := Option.some.inj (h.symm.trans hj)
    exact hc

/-- A CMD write to an idle block is accepted, whatever the word (R110, R130). -/
theorem step_accept {s : State} {v : Word} {ts : List Turn} (ht : s.turns = .host (.write 0x14 4 v) :: ts)
    (hb : s.busy = false) : step s = .next ((s.setTurns ts).accept v) := by
  rw [step_write ht rfl]
  exact congrArg _ (if_neg (by simp [hb]))

/-- Settles O8: acceptance does not look at the word, and the completion of a word that does not decode raises ILLEGAL_COMMAND. -/
theorem illegalWordRaisesIllegalCommand : Obligations.IllegalWordRaisesIllegalCommand := by
  intro s v ts hv hb hr ht
  have hd : decode v = none := by
    rcases hv with ho | ⟨f, hf, ho, hbit⟩
    · exact decode_eq_none_of_reserved_opcode ho
    · exact decode_eq_none_of_reserved_bit hf ho hbit
  have hengine := step_engine_busy (s := (s.setTurns (.engine :: ts)).accept v) rfl rfl hr
  exact ⟨step_accept ht hb, hengine.trans (complete_of_decode_eq_none hd)⟩

/-! ## Host-level operations -/

theorem step_engine {s : State} {ts : List Turn} (ht : s.turns = .engine :: ts) : step s = engineTurn (s.setTurns ts) := by
  simp only [step, advance, ht, serve]

theorem step_engine_idle {s : State} {ts : List Turn} (ht : s.turns = .engine :: ts) (hb : s.busy = false)
    (hr : s.resetting = false) : step s = .next (s.setTurns ts) := by
  simp [step_engine ht, engineTurn, hb, hr]

theorem step_rd_status {s : State} {ts : List Turn} (ht : s.turns = rd .status :: ts) :
    step s = .next ((s.setTurns ts).hostRead 0x18) := step_read ht rfl

/-- The engine's turn leaves the block idle, whatever it was doing, and the later turns as they are (R131, R260). -/
theorem engineTurn_idles {s t : State} (h : engineTurn s = .next t) : t.busy = false ∧ t.turns = s.turns := by
  rcases engineTurn_cases s with ⟨-, hx⟩ | ⟨-, -, hx⟩ | ⟨-, hb, hx⟩ <;> rw [hx] at h
  · cases h
    exact ⟨rfl, rfl⟩
  · obtain ⟨-, -, -, hturns, -⟩ := complete_host h
    exact ⟨complete_busy h, hturns⟩
  · cases h
    exact ⟨hb, rfl⟩

/-- Settles O19: by induction on the polls before the engine's turn; the poll after it reads BUSY = 0. -/
theorem waitEndsWithBusyClear : Obligations.WaitEndsWithBusyClear := by
  intro k
  induction k with
  | zero =>
    intro s ht
    obtain ⟨u, hu⟩ := engineTurn_answers (s.setTurns [rd .status])
    obtain ⟨hb, hts⟩ := engineTurn_idles hu
    have hreach : Reaches 2 s ((u.setTurns []).hostRead 0x18) := by
      simp only [reaches_succ, reaches_zero]
      exact ⟨u, (step_engine ht).trans hu, _, step_rd_status hts, rfl⟩
    exact ⟨_, hreach, hb, rfl, _, _, rfl, (statusWith_busy _ _).trans hb⟩
  | succ k ih =>
    intro s ht
    obtain ⟨t, hreach, hend⟩ := ih ((s.setTurns (waitTurns k)).hostRead 0x18) rfl
    exact ⟨t, (reaches_succ _ s t).2 ⟨_, step_rd_status ht, hreach⟩, hend⟩

/-- `s` after a host has written the operand `v` to DATA, read STATUS and had the word `w` accepted, with the turns `ts` to come
(R114, R130). -/
def State.issued (s : State) (v w : Word) (ts : List Turn) : State :=
  (((s.setTurns ts).setData v).hostRead 0x18).accept w

/-- The turns of a pseudo-instruction with a DATA operand, without a poll before the engine's turn, issue its command to an idle
block (R114, R130). -/
theorem reaches_issued {s : State} {v : Word} {i : Instr} {ts : List Turn} (ht : s.turns = cmdDataTurns 0 v i ++ ts)
    (hb : s.busy = false) (hr : s.resetting = false) : Reaches 4 s (s.issued v (encode i) ts) := by
  simp only [reaches_succ, reaches_zero]
  exact ⟨_, step_write ht rfl, _, step_engine_idle rfl hb hr, _, step_rd_status rfl, _, step_accept rfl hb, rfl⟩

/-- Issuing a command writes the host's part and the latches (R27, R130). -/
theorem keptBut_issued (s : State) (v w : Word) (ts : List Turn) : KeptBut [.host, .latches] s (s.issued v w ts) := by
  intro p hp
  cases p <;> simp [Part.Same, State.issued, State.hostRead] at hp ⊢

/-- Settles O20: the turns issue the command, and its word decodes to it at the engine's next turn. -/
theorem issuedCommandRuns : Obligations.IssuedCommandRuns := by
  intro s v i ts hi hb hr ht
  have hengine := step_engine_busy (s := s.issued v (encode i) (.engine :: ts)) rfl rfl hr
  have hruns := hengine.trans (complete_of_decode_eq_some (encodeThenDecode i hi))
  exact ⟨s.issued v (encode i) (.engine :: ts), reaches_issued ht hb hr, rfl, rfl, rfl, rfl, hr, rfl, rfl, rfl, rfl, rfl,
    keptBut_issued s v _ _, hruns⟩

end Sys2Proof.Machine
end

section
/-! SUPPORT. The family of 40_control.md: every command completes, no completion reads DATA, how a CMD write and the engine's turn
are served, and the control commands NOP and SRESET. -/

namespace Sys2Proof.Machine

/-! ## Every command completes -/

/-- No error has the code 0 of a success (R230). -/
theorem code_bne_zero (e : Error) : (e.code != 0) = true := by
  obtain ⟨hpos, -⟩ := code_bounds e
  rw [bne_iff_ne]
  intro h
  simp [h] at hpos

/-- Settles O10: both ways to complete write the whole status, and a success has ECODE = 0. -/
theorem everyCommandCompletes : Obligations.EveryCommandCompletes := by
  intro i s
  rcases exec_cases i s with ⟨e, -, hx⟩ | ⟨u, -, hx⟩
  · exact ⟨s.finishErr e, hx, rfl, (code_bne_zero e).symm, fun _ => rfl⟩
  · exact ⟨u.finishOk, hx, rfl, rfl, fun h => absurd rfl h⟩

/-! ## A completion does not read DATA or CUR_CMD -/

/-- `s` with other values in DATA and CUR_CMD. -/
def State.relatch (d c : Word) (s : State) : State := { s with data := d, curCmd := c }

/-- The answer `r` with `f` applied to its next state. -/
def mapNext (f : State → State) : Result → Result
  | .next t => .next (f t)
  | .fault r => .fault r
  | .refused r => .refused r

section Relatch

variable (s : State) (d c : Word)

/-- The walk reads NODE only. -/
theorem walk_relatch (fuel : Nat) : ∀ (i : NodeIx) (p : Digits), (s.relatch d c).walk fuel i p = s.walk fuel i p := by
  induction fuel with
  | zero => intro i p; rfl
  | succ fuel ih =>
    intro i p
    cases h : s.nodeAt i with
    | leaf x w => rw [walk_leaf h, walk_leaf (s := s.relatch d c) h]
    | internal w l r => rw [walk_internal h, walk_internal (s := s.relatch d c) h, ih, ih]

theorem codeWords_relatch : (s.relatch d c).codeWords = s.codeWords := by
  unfold State.codeWords
  rw [walk_relatch]
  rfl

/-- A digit of the stream does the same whatever DATA and CUR_CMD hold (R211, R212). -/
theorem digit_relatch (b : Bool) : (s.relatch d c).digit b = (s.digit b).relatch d c := by
  have hm : ((s.relatch d c).pushDigit b).matched = (s.pushDigit b).matched := rfl
  unfold State.digit
  rw [hm, apply_ite (State.relatch d c), apply_ite (State.relatch d c)]
  cases (s.pushDigit b).matched <;> rfl

theorem digits_relatch (bs : Digits) : (s.relatch d c).digits bs = (s.digits bs).relatch d c := by
  induction bs generalizing s with
  | nil => rfl
  | cons b bs ih => rw [digits_cons, digits_cons, digit_relatch, ih]

/-- A check with two outcomes commutes with a change of the state where each outcome does. -/
theorem ite_eq_mapNext {p : Prop} {_ : Decidable p} {f : State → State} {a b a' b' : Result} (ha : a' = mapNext f a)
    (hb : b' = mapNext f b) : (if p then a' else b') = mapNext f (if p then a else b) := by
  rw [ha, hb, apply_ite (mapNext f)]

/-- Every command but SRESET commutes with a change of DATA and CUR_CMD (R131; log 13): none of its checks and none of its
writes reads them. -/
theorem exec_relatch {i : Instr} (hi : i ≠ .sreset) :
    exec i (s.relatch d c) = mapNext (State.relatch d c) (exec i s) := by
  cases i with
  | sreset => exact absurd rfl hi
  | incfreq x => exact ite_eq_mapNext rfl rfl
  | setfreq x =>
    have hop : (s.relatch d c).dataCount = s.dataCount := rfl
    simp only [exec, execSetfreq, hop]
    cases s.dataCount <;> rfl
  | build =>
    have hls : (s.relatch d c).leaves = s.leaves := rfl
    simp only [exec, execBuild, hls]
    cases s.leaves <;> rfl
  | rdnode k => exact ite_eq_mapNext rfl (ite_eq_mapNext rfl rfl)
  | derive => exact ite_eq_mapNext rfl (by rw [codeWords_relatch]; rfl)
  | wrctl x =>
    have hop : (s.relatch d c).dataLen = s.dataLen := rfl
    simp only [exec, execWrctl, hop]
    cases s.dataLen <;> rfl
  | enc x => exact ite_eq_mapNext rfl (ite_eq_mapNext rfl rfl)
  | dec n => exact ite_eq_mapNext rfl (by rw [digits_relatch]; rfl)
  | decend => exact ite_eq_mapNext rfl rfl
  | popsym =>
    have hq : (s.relatch d c).symq = s.symq := rfl
    simp only [exec, execPopsym, hq]
    cases s.symq <;> rfl
  | _ => rfl

end Relatch

/-- SRESET keeps DATA and sets CUR_CMD to 0, whatever they were (R50, R133; log 13). -/
theorem execSreset_relatch (s : State) (d c : Word) :
    exec .sreset (s.relatch d c) = .next (s.softReset.finishOk.relatch d 0) := rfl

/-- Settles O14: SRESET overwrites CUR_CMD, and every other command commutes with the change. -/
theorem commandsIgnoreDataAndCmd : Obligations.CommandsIgnoreDataAndCmd := by
  intro i s t d c h
  by_cases hi : i = .sreset
  · subst hi
    obtain rfl := (ok_eq_next _ _).1 h
    exact execSreset_relatch s d c
  · rw [if_neg hi]
    exact (exec_relatch s d c hi).trans (by rw [h]; rfl)

/-! ## The engine's turn and a CMD write -/

theorem step_past_turns {s : State} (ht : s.turns = []) : step s = engineTurn s := by
  simp only [step, advance, ht]

/-- The engine's turn while a command runs is its completion (R131). -/
theorem engineTurn_busy {s : State} (hb : s.busy = true) (hr : s.resetting = false) : engineTurn s = complete s := by
  simp [engineTurn, hb, hr]

/-- Settles O7: the engine's turn, on the list or past its end, completes the command that CUR_CMD decodes to. -/
theorem stepRunsDecodedCommand : Obligations.StepRunsDecodedCommand := by
  intro s i hb hr hd
  constructor
  · intro ht
    rw [step_past_turns ht, engineTurn_busy hb hr, complete_of_decode_eq_some hd]
  · intro ts ht
    exact (step_engine_busy ht hb hr).trans (complete_of_decode_eq_some (s := s.setTurns ts) hd)

/-- A CMD write to a busy block is dropped, with OVR set (R33, R130). -/
theorem step_drop {s : State} {v : Word} {ts : List Turn} (ht : s.turns = .host (.write 0x14 4 v) :: ts)
    (hb : s.busy = true) : step s = .next (s.setTurns ts).setOvr := by
  rw [step_write ht rfl]
  exact congrArg _ (if_pos hb)

/-- Settles O9: the two cases of BUSY. -/
theorem commandAcceptance : Obligations.CommandAcceptance :=
  fun _ _ _ ht => ⟨step_accept ht, step_drop ht⟩

/-! ## NOP and SRESET -/

/-- A word's OP field as a number (R101). -/
theorem toNat_opcode_field (w : Word) : (w.extractLsb' 24 8).toNat = w.toNat / 2 ^ 24 := by
  rw [BitVec.extractLsb'_toNat, Nat.shiftRight_eq_div_pow]
  omega

/-- Settles O27: NOP's format has no free bits, so a word with OP 0 other than 0 has a reserved bit set. -/
theorem nopClearsTheError : Obligations.NopClearsTheError := by
  refine ⟨fun w hop => ⟨?_, fun hw => ?_⟩, fun s => rfl⟩
  · rintro rfl
    decide
  · have ho : w.toNat / 2 ^ 24 = 0 := by rw [← toNat_opcode_field, hop]; rfl
    have hne : w.toNat ≠ 0 := fun h => hw (BitVec.eq_of_toNat_eq h)
    exact decode_eq_none_of_reserved_bit (f := (0, 0)) (by decide) ho (by simp only [pow_zero]; omega)

/-- Settles O28: the state is the reset state with the fields the host and the model own; its elements are those of the reset
state. -/
theorem sresetGivesTheResetState : Obligations.SresetGivesTheResetState :=
  ⟨by decide, fun s => ⟨s.softReset.finishOk, rfl, exec_keptBut rfl, rfl, rfl, fun _ => rfl, rfl, rfl, rfl,
    fun _ => rfl, ctWord_reset, rfl, rfl, rfl, rfl, rfl, rfl, rfl, rfl, rfl, rfl, rfl, rfl⟩⟩

end Sys2Proof.Machine
end

section
/-! SUPPORT. The family of 41_freq.md: the clearing commands, one count written or read, and counting a sequence of symbols. -/

namespace Sys2Proof.Machine

/-! ## A completion without an error -/

/-- The frame and the status of a command's writes under a success (R131); SRESET alone clears ESTICKY. -/
theorem Effect.keptBut_succeeded {i : Instr} {s u : State} (w : Effect s i u) (h : i ≠ .sreset) :
    KeptBut (mayWrite i) s u.finishOk ∧ Succeeded s u.finishOk :=
  ⟨w.keptBut.finishOk, rfl, rfl, rfl, w.esticky h⟩

@[simp] theorem freqAt_finishOk (s : State) (x : Sym) : s.finishOk.freqAt x = s.freqAt x := rfl

@[simp] theorem freqAt_setFreq_nil (s : State) (x : Sym) : (s.setFreq []).freqAt x = 0 := rfl

/-- Settles O29: each command's writes are its store's reset value, under a success. -/
theorem clearingCommandsEmptyTheirStore : Obligations.ClearingCommandsEmptyTheirStore := by
  refine ⟨⟨by decide, fun s => ?clrfreq⟩, ⟨by decide, fun s => ?clrct⟩, ⟨by decide, fun s => ?clrout⟩,
    ⟨by decide, fun s => ?decrst⟩⟩
  case clrfreq => exact ⟨_, rfl, fun _ => rfl, Effect.clrfreq.keptBut_succeeded (by decide)⟩
  case clrct => exact ⟨_, rfl, fun _ => rfl, ctWord_reset, Effect.clrct.keptBut_succeeded (by decide)⟩
  case clrout => exact ⟨_, rfl, rfl, Effect.clrout.keptBut_succeeded (by decide)⟩
  case decrst => exact ⟨_, rfl, rfl, rfl, rfl, rfl, Effect.decrst.keptBut_succeeded (by decide)⟩

/-! ## One count -/

/-- The state after an INCFREQ that does not overflow (R141). -/
def State.counted (s : State) (x : Sym) : State := (s.setFreqAt x (s.freqAt x + 1)).finishOk

theorem exec_incfreq_of_eq {s : State} {x : Sym} (h : s.freqAt x = Config.freqMax) :
    exec (.incfreq x) s = raise .countOverflow s := if_pos h

theorem exec_incfreq_of_ne {s : State} {x : Sym} (h : s.freqAt x ≠ Config.freqMax) :
    exec (.incfreq x) s = .next (s.counted x) := if_neg h

theorem freqAt_counted (s : State) (x y : Sym) :
    (s.counted x).freqAt y = s.freqAt y + if x = y then 1 else 0 := by
  by_cases h : x = y
  · simp [State.counted, h]
  · simp [State.counted, h, freqAt_setFreqAt_of_ne _ _ (Ne.symm h)]

theorem freqAt_eq_freqMax_iff (s : State) (x : Sym) :
    s.freqAt x = Config.freqMax ↔ (s.freqAt x).toNat = 16777215 :=
  BitVec.toNat_inj.symm

/-- Below FREQ_MAX the 24-bit sum does not wrap (R141). -/
theorem toNat_freqAt_counted {s : State} {x : Sym} (h : s.freqAt x ≠ Config.freqMax) (y : Sym) :
    ((s.counted x).freqAt y).toNat = (s.freqAt y).toNat + if x = y then 1 else 0 := by
  rw [freqAt_counted]
  by_cases hxy : x = y
  · subst hxy
    have hmax := mt (freqAt_eq_freqMax_iff s x).2 h
    have hlt := (s.freqAt x).isLt
    rw [if_pos rfl, if_pos rfl, BitVec.toNat_add, show (1 : Count).toNat = 1 from rfl]
    omega
  · simp [hxy]

/-- Settles O30: the two cases of the count at FREQ_MAX. -/
theorem incfreqCountsOneSymbol : Obligations.IncfreqCountsOneSymbol := by
  refine ⟨fun x => encodeThenDecode (.incfreq x) rfl, fun s x => ⟨fun h => ?_, fun h => ?_⟩⟩
  · exact exec_incfreq_of_eq ((freqAt_eq_freqMax_iff s x).2 h)
  · have hne := mt (freqAt_eq_freqMax_iff s x).1 h
    refine ⟨s.counted x, exec_incfreq_of_ne hne, ?_, fun y hy => ?_, (Effect.incfreq hne).keptBut_succeeded (by simp)⟩
    · simp [toNat_freqAt_counted hne]
    · simp [freqAt_counted, Ne.symm hy]

/-- SETFREQ's operand is out of range exactly above 0xFFFFFF (R142). -/
theorem curData_high_eq_zero_iff (s : State) : s.curData.extractLsb' 24 8 = 0 ↔ s.curData.toNat ≤ 16777215 := by
  rw [← BitVec.toNat_inj, toNat_opcode_field, show (0 : BitVec 8).toNat = 0 from rfl]
  omega

theorem dataCount_eq_none {s : State} (h : 16777215 < s.curData.toNat) : s.dataCount = none :=
  if_neg (mt (curData_high_eq_zero_iff s).1 (by omega))

theorem dataCount_eq_some {s : State} (h : s.curData.toNat ≤ 16777215) :
    s.dataCount = some (s.curData.setWidth 24) :=
  if_pos ((curData_high_eq_zero_iff s).2 h)

/-- Settles O33: the two cases of SETFREQ's operand. -/
theorem setfreqWritesOneCount : Obligations.SetfreqWritesOneCount := by
  refine ⟨fun x => encodeThenDecode (.setfreq x) rfl, fun s x => ⟨fun h => ?_, fun h => ?_⟩⟩
  · simp [exec, execSetfreq, dataCount_eq_none h, raise, finishErr_eq_failedWith, Error.code]
  · have hd := dataCount_eq_some h
    refine ⟨(s.setFreqAt x (s.curData.setWidth 24)).finishOk, by simp [exec, execSetfreq, hd], ?_, fun y hy => ?_,
      (Effect.setfreq hd).keptBut_succeeded (by simp)⟩
    · rw [freqAt_finishOk, freqAt_setFreqAt_self, BitVec.toNat_setWidth]
      omega
    · rw [freqAt_finishOk, freqAt_setFreqAt_of_ne _ _ hy]

/-- Settles O34: a count is narrower than a result, so zero-extension keeps its value. -/
theorem rdfreqReadsOneCount : Obligations.RdfreqReadsOneCount :=
  ⟨fun x => encodeThenDecode (.rdfreq x) rfl, fun s x => ⟨_, rfl, BitVec.toNat_setWidth_of_le (by decide), rfl,
    Effect.rdfreq.keptBut_succeeded (by simp)⟩⟩

/-! ## A sequence of symbols -/

/-- A run that begins with INCFREQ goes on from the counted state, and ends where the count is at FREQ_MAX (R141). -/
theorem runAll_incfreq_cons {s t : State} {x : Sym} {is : List Instr} :
    runAll (.incfreq x :: is) s = some t ↔ s.freqAt x ≠ Config.freqMax ∧ runAll is (s.counted x) = some t := by
  by_cases h : s.freqAt x = Config.freqMax
  · simp [runAll, exec_incfreq_of_eq h, h, raise, Error.code]
  · simp [runAll, exec_incfreq_of_ne h, h, State.counted]

theorem wf_freq_counted {s : State} (h : Memory.wf 0 s.freq) (x : Sym) : Memory.wf 0 (s.counted x).freq :=
  wf_freq_setFreqAt h x _

/-- Two increments commute: the counts agree symbol by symbol, and canonical memories that read alike are equal (R141). -/
theorem counted_comm {s : State} (h : Memory.wf 0 s.freq) (x y : Sym) :
    (s.counted x).counted y = (s.counted y).counted x := by
  have hfreq : ((s.counted x).counted y).freq = ((s.counted y).counted x).freq :=
    Memory.ext_get (wf_freq_counted (wf_freq_counted h x) y) (wf_freq_counted (wf_freq_counted h y) x) fun z => by
      change ((s.counted x).counted y).freqAt z = ((s.counted y).counted x).freqAt z
      rw [freqAt_counted, freqAt_counted, freqAt_counted, freqAt_counted, add_right_comm]
  exact congrArg (fun m => (s.setFreq m).finishOk) hfreq

/-- Exchanging the first two INCFREQs of a run changes neither whether it overflows nor where it ends. -/
theorem runAll_incfreq_swap {s t : State} (h : Memory.wf 0 s.freq) {x y : Sym} {is : List Instr}
    (hr : runAll (.incfreq x :: .incfreq y :: is) s = some t) :
    runAll (.incfreq y :: .incfreq x :: is) s = some t := by
  by_cases hxy : x = y
  · exact hxy ▸ hr
  · rw [runAll_incfreq_cons, runAll_incfreq_cons, freqAt_counted, if_neg hxy] at hr
    rw [runAll_incfreq_cons, runAll_incfreq_cons, freqAt_counted, if_neg (Ne.symm hxy), counted_comm h]
    obtain ⟨hx, hy, hr⟩ := hr
    exact ⟨by simpa using hy, by simpa using hx, hr⟩

/-- The order of a run of INCFREQs does not matter, by induction over the permutation. -/
theorem runAll_incfreq_perm {xs ys : List Sym} (hp : xs.Perm ys) {s t : State} (h : Memory.wf 0 s.freq)
    (hr : runAll (xs.map Instr.incfreq) s = some t) : runAll (ys.map Instr.incfreq) s = some t := by
  induction hp generalizing s with
  | nil => exact hr
  | cons x _ ih =>
    obtain ⟨hx, hr⟩ := runAll_incfreq_cons.1 hr
    exact runAll_incfreq_cons.2 ⟨hx, ih (wf_freq_counted h x) hr⟩
  | swap x y _ => exact runAll_incfreq_swap h hr
  | trans _ _ ih₁ ih₂ => exact ih₂ h (ih₁ h hr)

/-- Settles O31: the canonical form of FREQ is all that the permutation lemma needs. -/
theorem incfreqOrderDoesNotMatter : Obligations.IncfreqOrderDoesNotMatter :=
  fun _ _ _ _ ⟨hfreq, _⟩ hp hr => runAll_incfreq_perm hp hfreq hr

/-- A run of INCFREQs adds to every count the symbol's number of occurrences, where no sum is above FREQ_MAX. -/
theorem runAll_incfreq_counts (xs : List Sym) {s : State} (h : ∀ x, (s.freqAt x).toNat + xs.count x ≤ 16777215) :
    ∃ t, runAll (xs.map Instr.incfreq) s = some t ∧ (∀ x, (t.freqAt x).toNat = (s.freqAt x).toNat + xs.count x) ∧
      KeptBut [.freq] s t := by
  induction xs generalizing s with
  | nil => exact ⟨s, rfl, fun _ => rfl, keptBut_refl _ s⟩
  | cons a xs ih =>
    have hne : s.freqAt a ≠ Config.freqMax := by
      have ha := h a
      rw [List.count_cons_self] at ha
      rw [Ne, freqAt_eq_freqMax_iff]
      omega
    have hcount : ∀ x, ((s.counted a).freqAt x).toNat + xs.count x = (s.freqAt x).toNat + (a :: xs).count x := by
      intro x
      simp only [toNat_freqAt_counted hne, List.count_cons, beq_iff_eq]
      omega
    obtain ⟨t, hr, hf, hk⟩ := ih fun x => (hcount x).trans_le (h x)
    exact ⟨t, runAll_incfreq_cons.2 ⟨hne, hr⟩, fun x => (hf x).trans (hcount x),
      (exec_keptBut (exec_incfreq_of_ne hne)).trans hk⟩

/-- Settles O32: CLRFREQ makes every count 0, and the INCFREQs add each symbol's number of occurrences. -/
theorem countingGivesTheFrequencyTable : Obligations.CountingGivesTheFrequencyTable := by
  intro xs s h
  obtain ⟨t, hr, hf, hk⟩ := runAll_incfreq_counts xs (s := (s.setFreq []).finishOk) (by simpa using h)
  exact ⟨t, hr, by simpa using hf, (exec_keptBut (i := .clrfreq) rfl).trans hk⟩

end Sys2Proof.Machine
end

section
/-! SUPPORT. The family of 42_tree.md: the nodes in the queue, one merge of the two least keys, the merge loop as a sequence of
such merges, the tree BUILD installs, and one node read. -/

namespace Sys2Proof.Machine

/-! ## The nodes in the queue -/

/-- `KeyOf ns a`: `a` is the key of one of the nodes `ns`, its weight with its index (R152). -/
def KeyOf (ns : List Node) (a : Key) : Prop := ns[a.2.toNat]?.map Node.weight = some a.1

/-- `Queued ns a`: `a` is the key of a node of `ns` that is no node's child, so of one still in the queue (R150). -/
def Queued (ns : List Node) (a : Key) : Prop := KeyOf ns a ∧ a.2 ∉ childIndices ns

theorem Queued.key {ns : List Node} {a : Key} (h : Queued ns a) : KeyOf ns a := h.1

theorem Queued.free {ns : List Node} {a : Key} (h : Queued ns a) : a.2 ∉ childIndices ns := h.2

/-- The index of a node fits its field: a tree has at most 511 nodes (R42). -/
theorem toNat_nodeIx {n : Nat} (h : n < 512) : (BitVec.ofNat 9 n).toNat = n := by
  simpa using h

theorem KeyOf.lt_length {ns : List Node} {a : Key} (h : KeyOf ns a) : a.2.toNat < ns.length := by
  obtain ⟨nd, hnd, -⟩ := Option.map_eq_some_iff.1 h
  exact (List.getElem?_eq_some_iff.1 hnd).1

/-- A node has one key, so keys with the same index are the same. -/
theorem KeyOf.eq_of_snd_eq {ns : List Node} {a b : Key} (ha : KeyOf ns a) (hb : KeyOf ns b) (h : a.2 = b.2) : a = b := by
  unfold KeyOf at ha hb
  rw [h, hb] at ha
  exact Prod.ext (Option.some.inj ha).symm h

/-- New nodes leave the keys of the old ones alone. -/
theorem KeyOf.of_extends {ns ms : List Node} {a : Key} (h : KeyOf ns a) (hp : ns <+: ms) : KeyOf ms a := by
  obtain ⟨new, rfl⟩ := hp
  rw [KeyOf, List.getElem?_append_left h.lt_length]
  exact h

/-- The keys after one node more: the old ones, and the new node's under the next free index (R151). -/
theorem keyOf_append_singleton {ns : List Node} (hlen : ns.length < 512) (nd : Node) (a : Key) :
    KeyOf (ns ++ [nd]) a ↔ KeyOf ns a ∨ a = (nd.weight, BitVec.ofNat 9 ns.length) := by
  have hix := toNat_nodeIx hlen
  constructor
  · intro h
    have hlt := h.lt_length
    rw [List.length_append, List.length_singleton] at hlt
    rcases Nat.lt_or_eq_of_le (Nat.le_of_lt_succ hlt) with hold | hnew
    · exact .inl (by simpa [KeyOf, List.getElem?_append_left hold] using h)
    · have hw : nd.weight = a.1 := by simpa [KeyOf, hnew] using h
      exact .inr (Prod.ext hw.symm (BitVec.eq_of_toNat_eq (hnew.trans hix.symm)))
  · rintro (h | rfl)
    · exact h.of_extends ⟨_, rfl⟩
    · simp [KeyOf, hix]

@[simp] theorem childIndices_append (ns ms : List Node) : childIndices (ns ++ ms) = childIndices ns ++ childIndices ms :=
  List.flatMap_append

@[simp] theorem childIndices_internal (w : Weight) (l r : NodeIx) : childIndices [.internal w l r] = [l, r] := rfl

/-! ## One merge -/

/-- In a queue without duplicates an extraction takes the key below all others (R150, R152). -/
theorem popMin_strict {q q' : List Key} {a : Key} (hq : q.Nodup) (h : popMin q = some (a, q')) :
    q.Perm (a :: q') ∧ ∀ c ∈ q', keyLt a c = true := by
  obtain ⟨ha, hleast, rfl⟩ := popMin_eq_some h
  refine ⟨List.perm_cons_erase ha, fun c hc => ?_⟩
  obtain ⟨hne, hmem⟩ := (List.Nodup.mem_erase_iff hq).1 hc
  exact (keyLt_total (hleast c hmem)).resolve_left hne

/-- `MergesLeast ns a b`: `a` and `b` are the two least keys of the queue, `a` the least, and their weights sum without a carry
(R150, R152, R155). -/
structure MergesLeast (ns : List Node) (a b : Key) : Prop where
  left : Queued ns a
  right : Queued ns b
  lt : keyLt a b = true
  least : ∀ c, Queued ns c → c = a ∨ c = b ∨ keyLt b c = true
  noCarry : a.1.toNat + b.1.toNat < 2 ^ 32

theorem MergesLeast.snd_ne {ns : List Node} {a b : Key} (h : MergesLeast ns a b) : a.2 ≠ b.2 := by
  intro he
  have hab := h.left.key.eq_of_snd_eq h.right.key he
  simpa [hab, keyLt_irrefl] using h.lt

/-- The node that merges the keys `a` and `b`, the first to the left (R153). -/
def mergedNode (a b : Key) : Node := .internal (a.1 + b.1) a.2 b.2

/-- The queue after a merge: the two children have left it, and the new node is in it (R150). -/
theorem queued_merge {ns : List Node} {a b : Key} (h : MergesLeast ns a b)
    (hchild : ∀ i ∈ childIndices ns, i.toNat < ns.length) (hlen : ns.length < 512) (c : Key) :
    Queued (ns ++ [mergedNode a b]) c ↔
      (Queued ns c ∧ c ≠ a ∧ c ≠ b) ∨ c = (a.1 + b.1, BitVec.ofNat 9 ns.length) := by
  have hix := toNat_nodeIx hlen
  have hfree : c.2 ∉ childIndices (ns ++ [mergedNode a b]) ↔ c.2 ∉ childIndices ns ∧ c.2 ≠ a.2 ∧ c.2 ≠ b.2 := by
    simp [mergedNode]
  rw [Queued, hfree, keyOf_append_singleton hlen]
  constructor
  · rintro ⟨hkey | hnew, hc, ha, hb⟩
    · exact .inl ⟨⟨hkey, hc⟩, fun e => ha (congrArg Prod.snd e), fun e => hb (congrArg Prod.snd e)⟩
    · exact .inr hnew
  · rintro (⟨⟨hkey, hc⟩, ha, hb⟩ | rfl)
    · exact ⟨.inl hkey, hc, mt (hkey.eq_of_snd_eq h.left.key) ha, mt (hkey.eq_of_snd_eq h.right.key) hb⟩
    · have hne : ∀ i : NodeIx, i.toNat < ns.length → BitVec.ofNat 9 ns.length ≠ i := by
        rintro i hi rfl
        omega
      exact ⟨.inr rfl, fun hm => hne _ (hchild _ hm) rfl, hne _ h.left.key.lt_length, hne _ h.right.key.lt_length⟩

/-! ## A sequence of merges -/

/-- `Merged ls ns`: the nodes `ns` are the leaves `ls` with merges of the two least keys after them (R150, R153). -/
inductive Merged (ls : List Node) : List Node → Prop where
  | leaves : Merged ls ls
  | merge {ns : List Node} {a b : Key} (h : Merged ls ns) (hm : MergesLeast ns a b) : Merged ls (ns ++ [mergedNode a b])

section Merged

variable {ls ns : List Node} (h : Merged ls ns)
include h

theorem Merged.extends_leaves : ls <+: ns := by
  induction h with
  | leaves => exact ⟨[], List.append_nil ls⟩
  | merge _ _ ih => exact ih.trans ⟨_, rfl⟩

/-- The leaves keep their indices (R151). -/
theorem Merged.getElem?_of_leaves {k : Nat} {nd : Node} (hk : ls[k]? = some nd) : ns[k]? = some nd := by
  obtain ⟨new, rfl⟩ := h.extends_leaves
  rw [List.getElem?_append_left (List.getElem?_eq_some_iff.1 hk).1, hk]

theorem Merged.filterMap_nodeSymbol : ns.filterMap nodeSymbol = ls.filterMap nodeSymbol := by
  induction h with
  | leaves => rfl
  | merge _ _ ih => simp [ih, mergedNode, nodeSymbol]

/-- A node is one of the leaves, or it merged the two least keys of the nodes below it. -/
theorem Merged.node_cases {k : Nat} {nd : Node} (hk : ns[k]? = some nd) :
    (k < ls.length ∧ nd ∈ ls) ∨ (ls.length ≤ k ∧ ∃ a b, MergesLeast (ns.take k) a b ∧ nd = mergedNode a b) := by
  induction h with
  | leaves => exact .inl ⟨(List.getElem?_eq_some_iff.1 hk).1, List.mem_of_getElem? hk⟩
  | @merge ns a b h hm ih =>
    have hlt := (List.getElem?_eq_some_iff.1 hk).1
    rw [List.length_append, List.length_singleton] at hlt
    rcases Nat.lt_or_eq_of_le (Nat.le_of_lt_succ hlt) with hold | rfl
    · rw [List.getElem?_append_left hold] at hk
      rw [List.take_append_of_le_length hold.le]
      exact ih hk
    · have hnd : mergedNode a b = nd := by simpa using hk
      exact .inr ⟨h.extends_leaves.length_le, a, b, by simpa using hm, hnd.symm⟩

/-- The leaves come first (R151). -/
theorem Merged.lt_of_leaf {k : Nat} {x : Sym} {w : Weight} (hk : ns[k]? = some (.leaf x w)) : k < ls.length := by
  rcases h.node_cases hk with ⟨hlt, -⟩ | ⟨-, a, b, -, hnd⟩
  · exact hlt
  · cases hnd

variable (hls : childIndices ls = [])
include hls

/-- An internal node stands after the leaves and merged the two least keys of the nodes below it (R150, R153). -/
theorem Merged.mergesLeast_of_internal {k : Nat} {w : Weight} {l r : NodeIx} (hk : ns[k]? = some (.internal w l r)) :
    ls.length ≤ k ∧ ∃ a b, MergesLeast (ns.take k) a b ∧ w = a.1 + b.1 ∧ l = a.2 ∧ r = b.2 := by
  rcases h.node_cases hk with ⟨-, hmem⟩ | ⟨hle, a, b, hm, hnd⟩
  · exact absurd (List.flatMap_eq_nil_iff.1 hls _ hmem) (List.cons_ne_nil _ _)
  · obtain ⟨hw, hl, hr⟩ := Node.internal.inj hnd
    exact ⟨hle, a, b, hm, hw, hl, hr⟩

/-- Children come before their parents (R151, R153). -/
theorem Merged.child_lt : ∀ i ∈ childIndices ns, i.toNat < ns.length := by
  induction h with
  | leaves => simp [hls]
  | merge _ hm ih =>
    intro i hi
    simp only [childIndices_append, mergedNode, childIndices_internal, List.mem_append, List.mem_cons,
      List.not_mem_nil, or_false] at hi
    rw [List.length_append, List.length_singleton]
    rcases hi with hi | rfl | rfl
    · exact Nat.lt_succ_of_lt (ih i hi)
    · exact Nat.lt_succ_of_lt hm.left.key.lt_length
    · exact Nat.lt_succ_of_lt hm.right.key.lt_length

/-- No node is a child twice: what a merge takes has left the queue (R150). -/
theorem Merged.nodup_children : (childIndices ns).Nodup := by
  induction h with
  | leaves => simp [hls]
  | @merge ns a b _ hm ih =>
    have hab : [a.2, b.2].Nodup := by simpa using hm.snd_ne
    have hdisj : (childIndices ns).Disjoint [a.2, b.2] := by
      simpa [List.disjoint_cons_right] using ⟨hm.left.free, hm.right.free⟩
    simpa [mergedNode] using ih.append hab hdisj

end Merged

/-! ## The merge loop -/

/-- The weights of the nodes `ns`, summed (R156 (e)). -/
def totalWeight (ns : List Node) : Nat := (ns.map fun nd => nd.weight.toNat).sum

/-- The weights of the keys of the queue `q`, summed. -/
def queueWeight (q : List Key) : Nat := (q.map fun a => a.1.toNat).sum

@[simp] theorem queueWeight_cons (a : Key) (q : List Key) : queueWeight (a :: q) = a.1.toNat + queueWeight q := rfl

theorem queueWeight_perm {q q' : List Key} (h : q.Perm q') : queueWeight q = queueWeight q' :=
  (h.map fun a : Key => a.1.toNat).sum_eq

/-- What the merge loop keeps: merges only, a queue of exactly the nodes without a parent, and the weight of the whole table in
it (R150, R156). -/
structure MergeInv (ls ns : List Node) (q : List Key) : Prop where
  merged : Merged ls ns
  nodup : q.Nodup
  mem_iff : ∀ a, a ∈ q ↔ Queued ns a
  length_add : ns.length + q.length = 2 * ls.length
  weight : queueWeight q = totalWeight ls

/-- The queue BUILD starts from holds the key of every leaf (R150, R151). -/
theorem mem_keysOf_iff {ls : List Node} (hlen : ls.length ≤ 256) (a : Key) : a ∈ keysOf ls ↔ KeyOf ls a := by
  simp only [keysOf, List.mem_map, Prod.exists, List.mem_zipIdx_iff_getElem?, KeyOf, Option.map_eq_some_iff]
  constructor
  · rintro ⟨nd, i, hi, rfl⟩
    have hlt := (List.getElem?_eq_some_iff.1 hi).1
    exact ⟨nd, by rwa [toNat_nodeIx (by omega)], rfl⟩
  · rintro ⟨nd, hi, hw⟩
    exact ⟨nd, a.2.toNat, hi, Prod.ext hw (BitVec.ofNat_toNat ..)⟩

theorem nodup_keysOf {ls : List Node} (hlen : ls.length ≤ 256) : (keysOf ls).Nodup := by
  refine List.Nodup.of_map Prod.snd ?_
  have hix : (keysOf ls).map Prod.snd = (List.range ls.length).map (BitVec.ofNat 9) := by
    rw [List.range_eq_range', ← List.zipIdx_map_snd, List.map_map, keysOf, List.map_map]
    rfl
  rw [hix]
  refine List.Nodup.map_on (fun i hi j hj he => ?_) List.nodup_range
  rw [List.mem_range] at hi hj
  rw [← toNat_nodeIx (show i < 512 by omega), he, toNat_nodeIx (by omega)]

theorem queueWeight_keysOf (ls : List Node) : queueWeight (keysOf ls) = totalWeight ls := by
  conv_rhs => rw [← List.zipIdx_map_fst 0 ls]
  simp only [queueWeight, totalWeight, keysOf, List.map_map]
  rfl

theorem mergeInv_keysOf {ls : List Node} (hls : childIndices ls = []) (hlen : ls.length ≤ 256) :
    MergeInv ls ls (keysOf ls) where
  merged := .leaves
  nodup := nodup_keysOf hlen
  mem_iff a := by simp [mem_keysOf_iff hlen, Queued, hls]
  length_add := by simp [keysOf, two_mul]
  weight := queueWeight_keysOf ls

/-- One turn of the merge loop merges the two least keys. -/
theorem MergeInv.mergesLeast {ls ns : List Node} {q q₁ q₂ : List Key} {a b : Key} (h : MergeInv ls ns q)
    (hw : totalWeight ls < 2 ^ 32) (h₁ : popMin q = some (a, q₁)) (h₂ : popMin q₁ = some (b, q₂)) :
    q.Perm (a :: b :: q₂) ∧ MergesLeast ns a b := by
  obtain ⟨hp₁, hlt₁⟩ := popMin_strict h.nodup h₁
  obtain ⟨hp₂, hlt₂⟩ := popMin_strict (hp₁.nodup h.nodup).of_cons h₂
  have hp : q.Perm (a :: b :: q₂) := hp₁.trans (hp₂.cons a)
  have hsum := h.weight ▸ queueWeight_perm hp
  simp only [queueWeight_cons] at hsum
  refine ⟨hp, (h.mem_iff a).1 (hp.mem_iff.2 (by simp)), (h.mem_iff b).1 (hp.mem_iff.2 (by simp)),
    hlt₁ b (hp₂.mem_iff.2 (by simp)), fun c hc => ?_, by omega⟩
  have hmem := hp.mem_iff.1 ((h.mem_iff c).2 hc)
  simp only [List.mem_cons] at hmem
  exact hmem.imp_right (Or.imp_right (hlt₂ c))

/-- What two extractions leave in a queue without duplicates is all of it but the two keys taken. -/
theorem mem_rest_iff {q q' : List Key} {a b : Key} (hq : q.Nodup) (hp : q.Perm (a :: b :: q')) (c : Key) :
    c ∈ q' ↔ c ∈ q ∧ c ≠ a ∧ c ≠ b := by
  have hnd := hp.nodup hq
  simp only [List.nodup_cons, List.mem_cons, not_or] at hnd
  obtain ⟨⟨-, ha⟩, hb, -⟩ := hnd
  rw [hp.mem_iff, List.mem_cons, List.mem_cons]
  constructor
  · exact fun hc => ⟨.inr (.inr hc), ne_of_mem_of_not_mem hc ha, ne_of_mem_of_not_mem hc hb⟩
  · exact fun ⟨hc, hca, hcb⟩ => (hc.resolve_left hca).resolve_left hcb

/-- One turn of the merge loop keeps its invariant; 511 nodes have their indices in 9 bits (R151). -/
theorem MergeInv.turn {ls ns : List Node} {q q₁ q₂ : List Key} {a b : Key} (h : MergeInv ls ns q)
    (hls : childIndices ls = []) (hlen : ls.length ≤ 256) (hw : totalWeight ls < 2 ^ 32)
    (h₁ : popMin q = some (a, q₁)) (h₂ : popMin q₁ = some (b, q₂)) :
    MergeInv ls (ns ++ [mergedNode a b]) (q₂ ++ [(a.1 + b.1, BitVec.ofNat 9 ns.length)]) := by
  obtain ⟨hp, hm⟩ := h.mergesLeast hw h₁ h₂
  have hl := hp.length_eq
  have hadd := h.length_add
  simp only [List.length_cons] at hl
  have hrest (c : Key) : c ∈ q₂ ↔ Queued ns c ∧ c ≠ a ∧ c ≠ b := by rw [mem_rest_iff h.nodup hp, h.mem_iff]
  have hk := List.perm_append_singleton (a.1 + b.1, BitVec.ofNat 9 ns.length) q₂
  refine ⟨h.merged.merge hm, ?nodup, fun c => ?mem, ?length, ?weight⟩
  case nodup =>
    refine hk.nodup_iff.2 (List.nodup_cons.2 ⟨fun hc => ?_, (hp.nodup h.nodup).of_cons.of_cons⟩)
    obtain ⟨hq, -⟩ := (hrest _).1 hc
    have hlt := hq.key.lt_length
    rw [toNat_nodeIx (by omega)] at hlt
    exact absurd hlt (lt_irrefl _)
  case mem =>
    rw [queued_merge hm (h.merged.child_lt hls) (by omega), List.mem_append, hrest, List.mem_singleton]
  case length =>
    simp only [List.length_append, List.length_singleton]
    omega
  case weight =>
    rw [queueWeight_perm hk, ← h.weight, queueWeight_perm hp]
    simp only [queueWeight_cons, BitVec.toNat_add_of_lt hm.noCarry]
    omega

/-- The merge loop keeps its invariant, by induction on the merges left. -/
theorem MergeInv.mergeLoop {ls : List Node} (hls : childIndices ls = []) (hlen : ls.length ≤ 256)
    (hw : totalWeight ls < 2 ^ 32) (fuel : Nat) {ns : List Node} {q : List Key} (h : MergeInv ls ns q) :
    MergeInv ls (mergeLoop fuel ns q).1 (mergeLoop fuel ns q).2 := by
  induction fuel generalizing ns q with
  | zero => exact h
  | succ fuel ih =>
    rcases mergeLoop_succ_cases fuel ns q with ⟨-, he⟩ | ⟨a, b, q₁, q₂, h₁, h₂, he⟩ <;> rw [he]
    · exact h
    · exact ih (h.turn hls hlen hw h₁ h₂)

/-- The tree over the leaves `ls`: merges from the leaves on, with the root alone left in the queue (R150, R156). -/
theorem buildTree_mergeInv {ls : List Node} (hne : ls ≠ []) (hls : childIndices ls = []) (hlen : ls.length ≤ 256)
    (hw : totalWeight ls < 2 ^ 32) :
    ∃ k : Key, (buildTree ls).2 = [k] ∧ MergeInv ls (buildTree ls).1 [k] := by
  have h : MergeInv ls (buildTree ls).1 (buildTree ls).2 := (mergeInv_keysOf hls hlen).mergeLoop hls hlen hw _
  have hadd := h.length_add
  obtain ⟨hn, -⟩ := buildTree_shape hne
  obtain ⟨k, hk⟩ := List.length_eq_one_iff.1 (show (buildTree ls).2.length = 1 by omega)
  exact ⟨k, hk, hk ▸ h⟩

/-! ## The table and its leaves -/

theorem mem_allSyms (x : Sym) : x ∈ allSyms :=
  List.mem_map.2 ⟨x.toNat, List.mem_range.2 x.isLt, BitVec.ofNat_toNat ..⟩

theorem allSyms_pairwise : allSyms.Pairwise (fun x y => x < y) := by
  refine List.pairwise_map.2 (List.pairwise_lt_range.imp_of_mem fun {i j} hi hj hij => ?_)
  rw [List.mem_range] at hi hj
  rw [BitVec.lt_def, BitVec.toNat_ofNat, BitVec.toNat_ofNat]
  omega

theorem mem_present_iff (s : State) (x : Sym) : x ∈ s.present ↔ s.freqAt x ≠ 0 := by
  simp [State.present, mem_allSyms]

theorem present_pairwise (s : State) : s.present.Pairwise (fun x y => x < y) := allSyms_pairwise.filter _

/-- FREQ in canonical form lists the present symbols with their counts (R41, R150; log 9). -/
theorem freq_eq_map_present {s : State} (h : Memory.wf 0 s.freq) :
    s.freq = s.present.map fun x => (x, s.freqAt x) := by
  have hwf : Memory.wf 0 (s.present.map fun x => (x, s.freqAt x)) :=
    Memory.wf_iff.2 ⟨List.pairwise_map.2 (present_pairwise s), by simp [mem_present_iff]⟩
  refine Memory.ext_get h hwf fun x => ?_
  by_cases hx : s.freqAt x = 0
  · refine hx.trans (Memory.get_of_forall_ne ?_).symm
    simp only [List.mem_map, mem_present_iff, forall_exists_index, and_imp]
    rintro _ y hy rfl rfl
    exact hy hx
  · exact (Memory.get_of_mem hwf (List.mem_map.2 ⟨x, (mem_present_iff s x).2 hx, rfl⟩)).symm

/-- BUILD's leaves are the present symbols, ascending, with their counts (R150, R151). -/
theorem leaves_eq_map_present {s : State} (h : Memory.wf 0 s.freq) :
    s.leaves = s.present.map fun x => .leaf x ((s.freqAt x).setWidth 32) := by
  rw [State.leaves, freq_eq_map_present h, List.map_map]
  rfl

/-- Leaves have no children. -/
theorem childIndices_leaves (s : State) : childIndices s.leaves = [] := by
  refine List.flatMap_eq_nil_iff.2 fun nd hnd => ?_
  obtain ⟨c, -, rfl⟩ := List.mem_map.1 hnd
  rfl

theorem length_leaves_le {s : State} (h : Memory.wf 0 s.freq) : s.leaves.length ≤ 256 := by
  simpa [State.leaves] using Memory.length_le h

/-- The leaves weigh what the table counts (R156 (e)). -/
theorem totalWeight_leaves {s : State} (h : Memory.wf 0 s.freq) :
    totalWeight s.leaves = (allSyms.map fun x => (s.freqAt x).toNat).sum := by
  have hw : totalWeight s.leaves = (s.present.map fun x => (s.freqAt x).toNat).sum := by
    rw [totalWeight, leaves_eq_map_present h, List.map_map]
    exact congrArg List.sum (List.map_congr_left fun x _ => BitVec.toNat_setWidth_of_le (by decide))
  have hp : s.present = allSyms.filter fun x => (s.freqAt x).toNat != 0 :=
    List.filter_congr fun x _ => by simp [bne, ← BitVec.toNat_inj]
  rw [hw, hp, ← List.sum_filter_bne_zero (allSyms.map _), List.filter_map]
  rfl

/-- 256 counts of 24 bits sum without a carry out of 32 bits (R155). -/
theorem totalWeight_leaves_lt {s : State} (h : Memory.wf 0 s.freq) : totalWeight s.leaves < 2 ^ 32 := by
  rw [totalWeight_leaves h]
  have hle := List.sum_le_card_nsmul (allSyms.map fun x => (s.freqAt x).toNat) (2 ^ 24 - 1) (by
    simp only [List.mem_map, forall_exists_index, and_imp]
    rintro _ x - rfl
    exact Nat.le_sub_one_of_lt (s.freqAt x).isLt)
  have hlen : allSyms.length = 256 := by simp [allSyms]
  rw [List.length_map, hlen, smul_eq_mul] at hle
  omega

/-! ## The tree BUILD installs -/

/-- An index below the end of NODE has its key there (R152). -/
theorem keyOf_keyAt {t : State} {i : NodeIx} (h : i.toNat < t.node.length) : KeyOf t.node (t.keyAt i) := by
  simp [KeyOf, State.keyAt, State.weightAt, State.nodeAt, h]

theorem KeyOf.keyAt_eq {t : State} {a : Key} (h : KeyOf t.node a) : t.keyAt a.2 = a :=
  (keyOf_keyAt h.lt_length).eq_of_snd_eq h rfl

/-- A key of the first k nodes is its node's key in the state, and its index is below k. -/
theorem KeyOf.of_take {t : State} {k : Nat} {a : Key} (h : KeyOf (t.node.take k) a) :
    a.2.toNat < k ∧ t.keyAt a.2 = a :=
  ⟨h.lt_length.trans_le (List.length_take_le _ _), (h.of_extends ⟨_, List.take_append_drop k t.node⟩).keyAt_eq⟩

/-- A node below k that is the child of no node below k is in the queue when node k is made. -/
theorem queued_take {t : State} {k : Nat} {j : NodeIx} (hk : k ≤ t.node.length) (hj : j.toNat < k)
    (hfree : j ∉ childIndices (t.node.take k)) : Queued (t.node.take k) (t.keyAt j) := by
  have hkey := keyOf_keyAt (hj.trans_le hk)
  have htake : (t.node.take k)[j.toNat]? = t.node[j.toNat]? := List.getElem?_take_of_lt hj
  exact ⟨(congrArg (Option.map Node.weight) htake).trans hkey, hfree⟩

/-- Every node of a sequence of merges is a leaf or an internal node as a tree has it (R151, R153, R155, R156 (a), (d)). -/
theorem Merged.nodeOk {t : State} {ls : List Node} (h : Merged ls t.node) (hls : childIndices ls = []) {k : Nat} {nd : Node}
    (hk : t.node[k]? = some nd) : t.nodeOk ls.length nd k = true := by
  cases nd with
  | leaf x w => simpa [State.nodeOk] using h.lt_of_leaf hk
  | internal w l r =>
    obtain ⟨hle, a, b, hm, rfl, rfl, rfl⟩ := h.mergesLeast_of_internal hls hk
    obtain ⟨hal, hak⟩ := hm.left.key.of_take
    obtain ⟨hbl, hbk⟩ := hm.right.key.of_take
    have haw : t.weightAt a.2 = a.1 := congrArg Prod.fst hak
    have hbw : t.weightAt b.2 = b.1 := congrArg Prod.fst hbk
    simp [State.nodeOk, hle, hal, hbl, hak, hbk, haw, hbw, hm.lt, BitVec.toNat_add_of_lt hm.noCarry]

/-- BUILD's merges, seen from the state: the root's key alone is left in the queue (R150). -/
theorem installTree_mergeInv {s : State} (h : Memory.wf 0 s.freq) (hne : s.leaves ≠ []) :
    MergeInv s.leaves (s.installTree s.leaves).node
      [(s.installTree s.leaves).keyAt (s.installTree s.leaves).root] := by
  obtain ⟨k, hk, hinv⟩ :=
    buildTree_mergeInv hne (childIndices_leaves s) (length_leaves_le h) (totalWeight_leaves_lt h)
  have hroot : (s.installTree s.leaves).root = k.2 := by simp [State.installTree, hk, rootOf]
  have hq : Queued (s.installTree s.leaves).node k := (hinv.mem_iff k).1 (by simp)
  rw [hroot, hq.key.keyAt_eq]
  exact hinv

/-- What the merge invariant says of a state whose tree it describes. -/
theorem MergeInv.treeShape {t : State} {ls : List Node} (h : MergeInv ls t.node [t.keyAt t.root])
    (hls : childIndices ls = []) (hsyms : (ls.filterMap nodeSymbol).Pairwise (fun x y => x < y))
    (hcount : t.nodeCount.toNat = t.node.length) : t.TreeShape := by
  have hn : t.leafCount = ls.length := by
    have := h.length_add
    simp only [List.length_singleton] at this
    rw [State.leafCount, hcount]
    omega
  obtain ⟨hrootKey, hrootFree⟩ : Queued t.node (t.keyAt t.root) := (h.mem_iff _).1 (by simp)
  refine ⟨fun p hp => ?nodes, ?symbols, fun j hj => ?children, hrootFree⟩
  case nodes =>
    rw [hn]
    exact h.merged.nodeOk hls (List.mem_zipIdx_iff_getElem?.1 hp)
  case symbols => rwa [h.merged.filterMap_nodeSymbol]
  case children =>
    have hlt : j < t.node.length := hj.trans hrootKey.lt_length
    have hroot : t.root.toNat < 512 := t.root.isLt
    have hix : (BitVec.ofNat 9 j).toNat = j := toNat_nodeIx (by omega)
    refine List.count_eq_one_of_mem (h.merged.nodup_children hls) ?_
    by_contra hfree
    have hq : Queued t.node (t.keyAt (BitVec.ofNat 9 j)) := ⟨keyOf_keyAt (by rwa [hix]), hfree⟩
    have he : BitVec.ofNat 9 j = t.root := congrArg Prod.snd (List.mem_singleton.1 ((h.mem_iff _).2 hq))
    rw [← he, hix] at hj
    exact absurd hj (lt_irrefl j)

/-- The leaves' symbols are the present ones (R150, R151). -/
theorem filterMap_nodeSymbol_leaves {s : State} (h : Memory.wf 0 s.freq) :
    s.leaves.filterMap nodeSymbol = s.present := by
  rw [leaves_eq_map_present h, List.filterMap_map]
  exact List.filterMap_some

theorem installTree_treeShape {s : State} (h : Memory.wf 0 s.freq) (hne : s.leaves ≠ []) :
    (s.installTree s.leaves).TreeShape := by
  obtain ⟨-, hd⟩ := installTree_descriptorOk s hne (length_leaves_le h)
  obtain ⟨hcount, -⟩ := hd rfl
  refine (installTree_mergeInv h hne).treeShape (childIndices_leaves s) ?_ hcount.symm
  rw [filterMap_nodeSymbol_leaves h]
  exact present_pairwise s

/-! ## BUILD -/

theorem leaves_eq_nil_iff {s : State} (h : Memory.wf 0 s.freq) : s.leaves = [] ↔ ∀ x, s.freqAt x = 0 := by
  rw [leaves_eq_map_present h, List.map_eq_nil_iff, List.eq_nil_iff_forall_not_mem]
  simp [mem_present_iff]

theorem exec_build_of_nil {s : State} (h : s.leaves = []) : exec .build s = raise .emptyInput s := by
  simp [exec, execBuild, h]

theorem exec_build_of_ne {s : State} (h : s.leaves ≠ []) : exec .build s = ok (s.installTree s.leaves) := by
  obtain ⟨l, ls, h⟩ := List.exists_cons_of_ne_nil h
  simp [exec, execBuild, h]

/-- A BUILD that completes without an error had a symbol counted, and installs the tree over the leaves (R150). -/
theorem eq_installTree_of_exec_build {s t : State} (h : exec .build s = .next t) (he : t.ecode = 0) :
    s.leaves ≠ [] ∧ t = (s.installTree s.leaves).finishOk := by
  by_cases hne : s.leaves = []
  · rw [exec_build_of_nil hne, raise_eq_next] at h
    subst h
    cases he
  · rw [exec_build_of_ne hne, ok_eq_next] at h
    exact ⟨hne, h⟩

/-! ## The shape of the tree along a step -/

/-- The shape of a tree is a fact about the tree part of the state (R43). -/
theorem Part.Same.treeShape {s t : State} (h : Part.tree.Same s t) (hs : s.TreeShape) : t.TreeShape := by
  obtain ⟨hnode, -, hcount, hroot⟩ := h
  have hat : t.nodeAt = s.nodeAt := by
    funext i
    rw [State.nodeAt, State.nodeAt, hnode]
  have hok : t.nodeOk = s.nodeOk := by
    funext n nd j
    simp only [State.nodeOk, State.keyAt, State.weightAt, hat]
  simpa only [State.TreeShape, State.leafCount, hnode, hcount, hroot, hok] using hs

theorem Part.Same.treeInv {s t : State} (h : Part.tree.Same s t) (hs : s.TreeInv) : t.TreeInv := by
  have ⟨_, hvalid, _, _⟩ := h
  exact fun ht => h.treeShape (hs (hvalid ▸ ht))

/-- Of the commands, only SRESET and BUILD write the tree (R43). -/
theorem tree_notMem_mayWrite {i : Instr} (h₁ : i ≠ .sreset) (h₂ : i ≠ .build) : Part.tree ∉ mayWrite i := by
  cases i <;> simp [mayWrite] at h₁ h₂ ⊢

/-- A command's writes keep a valid tree a tree: SRESET leaves none, BUILD installs one, and no other command writes it. -/
theorem Effect.treeInv {i : Instr} {s u : State} (w : Effect s i u) (hm : s.MemoriesOk) (h : s.TreeInv) : u.TreeInv := by
  by_cases hr : i = .sreset
  · subst hr
    cases w
    exact fun he => absurd he Bool.false_ne_true
  by_cases hb : i = .build
  · subst hb
    obtain ⟨hfreq, -⟩ := hm
    cases w with
    | build hne => exact fun _ => installTree_treeShape hfreq hne
  exact (w.keptBut _ (tree_notMem_mayWrite hr hb)).treeInv h

theorem complete_treeInv {s t : State} (hm : s.MemoriesOk) (h : s.TreeInv) (hc : complete s = .next t) : t.TreeInv := by
  rcases complete_next_cases hc with ⟨e, -, rfl⟩ | ⟨i, u, -, hu, rfl⟩
  · exact (keptBut_finishErr [] s e .tree (by simp)).treeInv h
  · exact ((keptBut_refl [] u).finishOk .tree (by simp)).treeInv (hu.treeInv hm h)

/-- Every move keeps a valid tree a tree: only a completion and the end of a reset sequence write it. -/
theorem Moves.treeInv {s t : State} (w : Moves s t) (hm : s.MemoriesOk) (h : s.TreeInv) : t.TreeInv := by
  cases w with
  | endsReset => exact reset_treeInv
  | completes _ _ _ hc => exact complete_treeInv (s := s.setTurns s.turns.tail) hm h hc
  | _ => exact h

/-- Settles O59: a valid tree stays a tree along every move. -/
theorem stepKeepsTheTreeShape : Obligations.StepKeepsTheTreeShape := by
  intro s t hinv h hs
  obtain ⟨-, hm, -⟩ := hinv
  exact (moves_of_step hs).treeInv hm h

/-! ## What BUILD makes -/

/-- Settles O35: canonical FREQ with every count 0 has no leaves. -/
theorem buildRefusesAnEmptyTable : Obligations.BuildRefusesAnEmptyTable :=
  fun _ ⟨hfreq, _⟩ h => exec_build_of_nil ((leaves_eq_nil_iff hfreq).2 h)

/-- Settles O36: the leaves stand in front, and the shape is that of the merges. -/
theorem buildMakesATree : Obligations.BuildMakesATree := by
  rintro s ⟨hfreq, -⟩ ⟨x, hx⟩
  have hne : s.leaves ≠ [] := fun he => hx ((leaves_eq_nil_iff hfreq).1 he x)
  have hlen : s.leaves.length = s.present.length := by rw [leaves_eq_map_present hfreq, List.length_map]
  have hinv := installTree_mergeInv hfreq hne
  have hadd := hinv.length_add
  simp only [List.length_singleton, hlen] at hadd
  obtain ⟨-, hd⟩ := installTree_descriptorOk s hne (length_leaves_le hfreq)
  obtain ⟨hnode, hroot, -⟩ := hd rfl
  refine ⟨(s.installTree s.leaves).finishOk, exec_build_of_ne hne, rfl, ?length, ?count, ?root, fun k y hk => ?leaf,
    ?shape, (Effect.build hne).keptBut_succeeded (by decide)⟩
  case length =>
    rw [finishOk_node]
    omega
  case count =>
    rw [finishOk_nodeCount]
    omega
  case root =>
    rw [finishOk_root]
    omega
  case leaf =>
    refine hinv.merged.getElem?_of_leaves ?_
    rw [leaves_eq_map_present hfreq, List.getElem?_map, hk, Option.map_some]
  case shape => exact ((keptBut_refl [] _).finishOk .tree (by simp)).treeShape (installTree_treeShape hfreq hne)

/-- The merges of a BUILD that completed without an error. -/
theorem mergeInv_of_exec_build {s t : State} (h : Memory.wf 0 s.freq) (hx : exec .build s = .next t) (he : t.ecode = 0) :
    MergeInv s.leaves t.node [t.keyAt t.root] := by
  obtain ⟨hne, rfl⟩ := eq_installTree_of_exec_build hx he
  exact installTree_mergeInv h hne

/-- Settles O37: node k merged the two least keys of the queue, whose nodes are those below k without a parent below k. -/
theorem buildMergesTheTwoLeastKeys : Obligations.BuildMergesTheTwoLeastKeys := by
  rintro s t ⟨hfreq, -⟩ hx he k w l r hk
  obtain ⟨-, a, b, hm, -, rfl, rfl⟩ :=
    (mergeInv_of_exec_build hfreq hx he).merged.mergesLeast_of_internal (childIndices_leaves s) hk
  obtain ⟨hal, hak⟩ := hm.left.key.of_take
  obtain ⟨hbl, hbk⟩ := hm.right.key.of_take
  refine ⟨hm.snd_ne, hal, hm.left.free, hbl, hm.right.free, fun j hj hfree hja => ?_⟩
  have hq := queued_take (List.getElem?_eq_some_iff.1 hk).1.le hj hfree
  rw [hak, hbk]
  have hb : j ≠ b.2 → keyLt b (t.keyAt j) = true := fun hjb =>
    ((hm.least _ hq).resolve_left fun e => hja (congrArg Prod.snd e)).resolve_left fun e => hjb (congrArg Prod.snd e)
  refine ⟨?_, hb⟩
  by_cases hjb : j = b.2
  · rw [hjb, hbk]
    exact hm.lt
  · exact keyLt_trans hm.lt (hb hjb)

/-- Settles O38: the root's key is all that is left in the queue, and the queue weighs what the table counts. -/
theorem rootWeighsTheWholeTable : Obligations.RootWeighsTheWholeTable := by
  rintro s t ⟨hfreq, -⟩ hx he
  rw [← totalWeight_leaves hfreq, ← (mergeInv_of_exec_build hfreq hx he).weight]
  rfl

/-! ## RDNODE -/

/-- RESULT1 for a leaf: LEAF, the symbol, and zeros between (R158). -/
theorem nodeInfo_leaf_fields (b : Bool) (x : Sym) (w : Weight) :
    (nodeInfo b (.leaf x w)).getLsbD 31 = true ∧ (nodeInfo b (.leaf x w)).extractLsb' 8 22 = 0 ∧
      (nodeInfo b (.leaf x w)).extractLsb' 0 8 = x := by
  unfold nodeInfo
  refine ⟨?leaf, extractLsb'_append_append_middle .., BitVec.extractLsb'_append_eq_right⟩
  case leaf =>
    simp only [BitVec.getLsbD_append]
    simp

/-- RESULT1 for an internal node: no LEAF, the children, and zeros between (R158). -/
theorem nodeInfo_internal_fields (b : Bool) (w : Weight) (l r : NodeIx) :
    (nodeInfo b (.internal w l r)).getLsbD 31 = false ∧ (nodeInfo b (.internal w l r)).extractLsb' 25 5 = 0 ∧
      (nodeInfo b (.internal w l r)).extractLsb' 16 9 = r ∧ (nodeInfo b (.internal w l r)).extractLsb' 9 7 = 0 ∧
      (nodeInfo b (.internal w l r)).extractLsb' 0 9 = l := by
  unfold nodeInfo
  refine ⟨?leaf, ?high, ?right, extractLsb'_append_append_middle .., BitVec.extractLsb'_append_eq_right⟩
  case leaf =>
    simp only [BitVec.getLsbD_append]
    simp
  case high =>
    iterate 2 rw [BitVec.extractLsb'_append_eq_of_le (by decide)]
    exact extractLsb'_append_append_middle ..
  case right =>
    rw [BitVec.extractLsb'_append_eq_of_le (by decide)]
    exact extractLsb'_append_append_middle ..

/-- Bit 30 of RESULT1 is ISROOT, for either kind of node (R158). -/
theorem nodeInfo_isroot (b : Bool) (nd : Node) : (nodeInfo b nd).getLsbD 30 = b := by
  cases nd <;> (simp only [nodeInfo, BitVec.getLsbD_append]; simp)

/-- Settles O39: the three cases of RDNODE, NO_TREE before NODE_RANGE. -/
theorem rdnodeReadsOneNode : Obligations.RdnodeReadsOneNode := by
  refine ⟨fun i => encodeThenDecode (.rdnode i) rfl, fun s i =>
    ⟨fun hv => if_pos hv, fun hv hi => ?range, fun hv hi => ?read⟩⟩
  case range => exact (if_neg (ne_false_of_eq_true hv)).trans (if_pos hi)
  case read =>
    obtain ⟨hkept, hok⟩ := (Effect.rdnode hv hi).keptBut_succeeded (by simp)
    refine ⟨_, (if_neg (ne_false_of_eq_true hv)).trans (if_neg (Nat.not_le.2 hi)), hkept, hok, ?isroot, fun x w h => ?leaf,
      fun w l r h => ?internal⟩
    case isroot =>
      rw [finishOk_result1, setResults_result1, nodeInfo_isroot, beq_iff_eq]
    case leaf =>
      rw [h]
      exact ⟨rfl, nodeInfo_leaf_fields _ x w⟩
    case internal =>
      rw [h]
      exact ⟨rfl, nodeInfo_internal_fields _ w l r⟩

end Sys2Proof.Machine
end

section
/-! SUPPORT. The family of 43_codetable.md: one element of the table written or read, the paths of a tree, the walk that
lists them, and the table DERIVE makes of them. -/

namespace Sys2Proof.Machine

/-! ## One element of the table -/

@[simp] theorem ctAt_finishOk (s : State) (x : Sym) : s.finishOk.ctAt x = s.ctAt x := rfl

/-- The encoder's format SW with the word index before the symbol, as R177 and R179 write it. -/
theorem encodeSW_eq_or_sym (p : Word) (x : Sym) (w : BitVec 3) :
    encodeSW p x w = p ||| (w.setWidth 32 <<< 8) ||| x.setWidth 32 := by
  rw [encodeSW, BitVec.or_assoc, BitVec.or_comm (x.setWidth 32), ← BitVec.or_assoc]

/-- WRCTL's operand is out of range exactly above 255 (R176). -/
theorem curData_above_len_eq_zero_iff (s : State) : s.curData.extractLsb' 8 24 = 0 ↔ s.curData.toNat ≤ 255 := by
  have hlt := s.curData.isLt
  rw [← BitVec.toNat_inj, BitVec.extractLsb'_toNat, Nat.shiftRight_eq_div_pow,
    show (0 : BitVec 24).toNat = 0 from rfl]
  omega

theorem dataLen_eq_none {s : State} (h : 255 < s.curData.toNat) : s.dataLen = none :=
  if_neg (mt (curData_above_len_eq_zero_iff s).1 (by omega))

theorem dataLen_eq_some {s : State} (h : s.curData.toNat ≤ 255) : s.dataLen = some (s.curData.setWidth 8) :=
  if_pos ((curData_above_len_eq_zero_iff s).2 h)

/-- Settles O44: the two cases of WRCTL's operand. -/
theorem wrctlWritesOneLength : Obligations.WrctlWritesOneLength := by
  refine ⟨fun x => encodeThenDecode (.wrctl x) rfl, fun s x => ⟨fun h => ?range, fun h => ?write⟩⟩
  case range => simp [exec, execWrctl, dataLen_eq_none h, raise, finishErr_eq_failedWith, Error.code]
  case write =>
    have hd := dataLen_eq_some h
    refine ⟨(s.setCtAt x { s.ctAt x with len := s.curData.setWidth 8 }).finishOk, by simp [exec, execWrctl, hd], ?len,
      fun w => ?words, fun y hy => ctAt_setCtAt_of_ne _ _ hy, (Effect.wrctl hd).keptBut_succeeded (by simp)⟩
    case len =>
      rw [ctAt_finishOk, ctAt_setCtAt_self, BitVec.toNat_setWidth]
      omega
    case words => simp [State.ctWord]

/-- Settles O45: the vector of an entry's words is written at one index. -/
theorem wrctwWritesOneWord : Obligations.WrctwWritesOneWord := by
  refine ⟨fun x w => encodeSW_eq_or_sym _ x w ▸ encodeThenDecode (.wrctw x w) rfl, fun s x w =>
    ⟨_, rfl, ?written, fun u hu => ?others, ?len, fun y hy => ctAt_setCtAt_of_ne _ _ hy,
      Effect.wrctw.keptBut_succeeded (by simp)⟩⟩
  case written => simp [State.ctWord, State.dataWord]
  case others =>
    have hne : w.toNat ≠ u.toNat := fun he => hu (BitVec.eq_of_toNat_eq he.symm)
    simp [State.ctWord, Vector.getElem_set_ne _ _ hne]
  case len => simp

/-- Settles O46: a length is narrower than a result, so zero-extension keeps its value. -/
theorem rdctlAndRdctwReadTheTable : Obligations.RdctlAndRdctwReadTheTable :=
  ⟨fun x => encodeThenDecode (.rdctl x) rfl,
    fun x w => encodeSW_eq_or_sym _ x w ▸ encodeThenDecode (.rdctw x w) rfl,
    fun s x => ⟨_, rfl, BitVec.toNat_setWidth_of_le (by decide), rfl, Effect.rdctl.keptBut_succeeded (by simp)⟩,
    fun s x w => ⟨_, rfl, rfl, rfl, Effect.rdctw.keptBut_succeeded (by simp)⟩⟩

/-! ## The tree DERIVE walks -/

/-- The tree a valid descriptor describes: n leaves and n - 1 internal nodes, the root the last of them (R43, R156). -/
structure State.IsTree (s : State) : Prop where
  length : s.node.length = s.root.toNat + 1
  root : s.root.toNat + 2 = 2 * s.leafCount
  shape : s.TreeShape

theorem isTree_of_valid {s : State} (hv : s.treeValid = true) (hd : s.DescriptorOk) (ht : s.TreeInv) : s.IsTree := by
  obtain ⟨-, hd⟩ := hd
  obtain ⟨hlen, hroot, hodd, -⟩ := hd hv
  refine ⟨hlen.trans hroot, ?_, ht hv⟩
  rw [State.leafCount]
  omega

/-- `s.Leads p i`: the digits `p` lead from the root to node i (R170). -/
inductive State.Leads (s : State) : Digits → NodeIx → Prop where
  | root : s.Leads [] s.root
  | child {p : Digits} {i l r : NodeIx} {w : Weight} (d : Bool) (h : s.Leads p i) (hi : s.nodeAt i = .internal w l r) :
      s.Leads (p ++ [d]) (if d then r else l)

section
variable {s : State} {i j l r : NodeIx} {w : Weight} {x y : Sym} {p q : Digits}

theorem mem_children_ite (d : Bool) : (if d then r else l) ∈ (Node.internal w l r).children := by
  cases d <;> simp [Node.children]

theorem nodeAt_eq_iff (h : i.toNat < s.node.length) (nd : Node) : s.nodeAt i = nd ↔ s.node[i.toNat]? = some nd := by
  simp [State.nodeAt, h]

namespace State.IsTree
variable (T : s.IsTree)
include T

theorem getElem?_nodeAt (hi : i.toNat ≤ s.root.toNat) : s.node[i.toNat]? = some (s.nodeAt i) :=
  (nodeAt_eq_iff (by have := T.length; omega) _).1 rfl

theorem exists_nodeAt {nd : Node} (h : nd ∈ s.node) :
    ∃ i : NodeIx, i.toNat ≤ s.root.toNat ∧ s.nodeAt i = nd := by
  obtain ⟨k, hk, hget⟩ := List.mem_iff_getElem.1 h
  have hlen := T.length
  have hroot := s.root.isLt
  have hix : (BitVec.ofNat 9 k).toNat = k := toNat_nodeIx (by omega)
  refine ⟨BitVec.ofNat 9 k, by omega, (nodeAt_eq_iff (by omega) nd).2 ?_⟩
  rw [hix, List.getElem?_eq_getElem hk, hget]

theorem leafCount_le : s.leafCount ≤ 256 := by
  have := T.root
  have := s.root.isLt
  omega

theorem nodeOk (hi : i.toNat ≤ s.root.toNat) : s.nodeOk s.leafCount (s.nodeAt i) i.toNat = true := by
  obtain ⟨hnodes, -⟩ := T.shape
  exact hnodes (s.nodeAt i, i.toNat) (List.mem_zipIdx_iff_getElem?.2 (T.getElem?_nodeAt hi))

/-- Where the lists that a function gives the nodes share nothing, what they hold belongs to one node. -/
theorem eq_of_nodup_flatMap {β : Type} {f : Node → List β} {b : β} (h : (s.node.flatMap f).Nodup)
    (hi : i.toNat ≤ s.root.toNat) (hj : j.toNat ≤ s.root.toNat) (hbi : b ∈ f (s.nodeAt i))
    (hbj : b ∈ f (s.nodeAt j)) : i = j := by
  have hdisj := List.pairwise_iff_getElem.1 (List.nodup_flatMap.1 h).2
  obtain ⟨hli, hgi⟩ := List.getElem?_eq_some_iff.1 (T.getElem?_nodeAt hi)
  obtain ⟨hlj, hgj⟩ := List.getElem?_eq_some_iff.1 (T.getElem?_nodeAt hj)
  rw [← hgi] at hbi
  rw [← hgj] at hbj
  rcases lt_trichotomy i.toNat j.toNat with hlt | he | hlt
  · exact absurd hbj (hdisj _ _ hli hlj hlt hbi)
  · exact BitVec.eq_of_toNat_eq he
  · exact absurd hbi (hdisj _ _ hlj hli hlt hbj)

/-- The first n nodes are the leaves, and both children of an internal node lie below it (R151, R156 (a)). -/
theorem internal_bounds (hi : i.toNat ≤ s.root.toNat) (h : s.nodeAt i = .internal w l r) :
    s.leafCount ≤ i.toNat ∧ l.toNat < i.toNat ∧ r.toNat < i.toNat := by
  have hok := T.nodeOk hi
  simp only [h, State.nodeOk, Bool.and_eq_true, decide_eq_true_eq] at hok
  tauto

theorem leaf_lt (hi : i.toNat ≤ s.root.toNat) (h : nodeSymbol (s.nodeAt i) = some x) : i.toNat < s.leafCount := by
  have hok := T.nodeOk hi
  cases hn : s.nodeAt i with
  | leaf => simpa [hn, State.nodeOk] using hok
  | internal => simp [hn, nodeSymbol] at h

theorem child_lt (hi : i.toNat ≤ s.root.toNat) (h : s.nodeAt i = .internal w l r) (d : Bool) :
    (if d then r else l).toNat < i.toNat := by
  obtain ⟨-, hl, hr⟩ := T.internal_bounds hi h
  cases d
  · exact hl
  · exact hr

/-- A child of some node of the tree is the child of a node above it. -/
theorem exists_parent (hj : j ∈ childIndices s.node) :
    ∃ (i : NodeIx) (w : Weight) (l r : NodeIx) (d : Bool), i.toNat ≤ s.root.toNat ∧
      s.nodeAt i = .internal w l r ∧ j = if d then r else l := by
  obtain ⟨nd, hnd, hj⟩ := List.mem_flatMap.1 hj
  obtain ⟨i, hi, rfl⟩ := T.exists_nodeAt hnd
  cases hn : s.nodeAt i with
  | leaf => simp [hn, Node.children] at hj
  | internal w l r =>
    have hd : ∃ d : Bool, j = if d then r else l := by simpa [hn, Node.children] using hj
    obtain ⟨d, hd⟩ := hd
    exact ⟨i, w, l, r, d, hi, hn, hd⟩

/-- Every node but the root is the child of exactly one node (R156 (b)). -/
theorem count_childIndices (hj : j.toNat < s.root.toNat) : (childIndices s.node).count j = 1 := by
  obtain ⟨-, -, honce, -⟩ := T.shape
  have h := honce _ hj
  rwa [BitVec.ofNat_toNat, BitVec.setWidth_eq] at h

theorem mem_childIndices_of_lt (hj : j.toNat < s.root.toNat) : j ∈ childIndices s.node :=
  List.count_pos_iff.1 (by rw [T.count_childIndices hj]; exact Nat.one_pos)

/-- No node is the child of two nodes, or both children of one (R156 (b)). -/
theorem nodup_childIndices : (childIndices s.node).Nodup := by
  refine List.nodup_iff_count_le_one.2 fun j => ?_
  rcases Nat.lt_or_ge j.toNat s.root.toNat with hj | hj
  · exact (T.count_childIndices hj).le
  · have hnot : j ∉ childIndices s.node := by
      intro hmem
      obtain ⟨i, w, l, r, d, hi, hat, rfl⟩ := T.exists_parent hmem
      have hlt := T.child_lt hi hat d
      omega
    rw [List.count_eq_zero_of_not_mem hnot]
    exact Nat.zero_le 1

/-- A child has one parent and is its left child or its right one. -/
theorem parent_unique {i' l' r' : NodeIx} {w' : Weight} {d d' : Bool} (hi : i.toNat ≤ s.root.toNat)
    (hi' : i'.toNat ≤ s.root.toNat) (h : s.nodeAt i = .internal w l r) (h' : s.nodeAt i' = .internal w' l' r')
    (he : (if d then r else l) = if d' then r' else l') : i = i' ∧ d = d' := by
  have hii : i = i' :=
    T.eq_of_nodup_flatMap T.nodup_childIndices hi hi' (h ▸ mem_children_ite d) (h' ▸ he ▸ mem_children_ite d')
  subst hii
  rw [h, Node.internal.injEq] at h'
  obtain ⟨-, rfl, rfl⟩ := h'
  have hlr : l ≠ r := by
    have := (List.nodup_flatMap.1 T.nodup_childIndices).1 _ (List.mem_of_getElem? (T.getElem?_nodeAt hi))
    simpa [h, Node.children] using this
  refine ⟨rfl, ?_⟩
  match d, d', he with
  | false, false, _ => rfl
  | true, true, _ => rfl
  | false, true, he => exact absurd he hlr
  | true, false, he => exact absurd he.symm hlr

/-- No two leaves have the same symbol (R151). -/
theorem leaf_unique (hi : i.toNat ≤ s.root.toNat) (hj : j.toNat ≤ s.root.toNat)
    (hx : nodeSymbol (s.nodeAt i) = some x) (hy : nodeSymbol (s.nodeAt j) = some x) : i = j := by
  obtain ⟨-, hrising, -⟩ := T.shape
  have hnodup : (s.node.flatMap fun nd => (nodeSymbol nd).toList).Nodup := by
    rw [← List.filterMap_eq_flatMap_toList]
    exact hrising.imp fun h => BitVec.ne_of_lt h
  exact T.eq_of_nodup_flatMap hnodup hi hj (Option.mem_toList.2 hx) (Option.mem_toList.2 hy)

end State.IsTree

/-! ## Paths from the root -/

theorem follow_of_leaf (h : s.nodeAt i = .leaf y w) : s.follow i p = some x ↔ p = [] ∧ x = y := by
  cases p <;> simp [State.follow, h, nodeSymbol, eq_comm]

theorem follow_of_internal (h : s.nodeAt i = .internal w l r) :
    s.follow i p = some x ↔ ∃ d q, p = d :: q ∧ s.follow (if d then r else l) q = some x := by
  cases p <;> simp [State.follow, h, nodeSymbol]

namespace State.Leads

theorem follow_append (h : s.Leads p i) : ∀ q, s.follow s.root (p ++ q) = s.follow i q := by
  induction h with
  | root => exact fun _ => rfl
  | child d _ hi ih =>
    intro q
    rw [List.append_assoc, ih, List.singleton_append, State.follow, hi]

theorem exists_of_follow (h : s.Leads p i) (hq : s.follow i q = some x) :
    ∃ j, s.Leads (p ++ q) j ∧ nodeSymbol (s.nodeAt j) = some x := by
  induction q generalizing p i with
  | nil => exact ⟨i, by rwa [List.append_nil], hq⟩
  | cons d q ih =>
    cases hi : s.nodeAt i with
    | leaf => simp [State.follow, hi] at hq
    | internal w l r =>
      rw [State.follow, hi] at hq
      obtain ⟨j, hj, hx⟩ := ih (h.child d hi) hq
      exact ⟨j, by simpa using hj, hx⟩

/-- Each step goes to a smaller index (R156 (a)). -/
theorem length_add_le (T : s.IsTree) (h : s.Leads p i) : p.length + i.toNat ≤ s.root.toNat := by
  induction h with
  | root => simp
  | child d _ hi ih =>
    have hlt := T.child_lt (by omega) hi d
    rw [List.length_append, List.length_singleton]
    omega

theorem le_root (T : s.IsTree) (h : s.Leads p i) : i.toNat ≤ s.root.toNat := by
  have := h.length_add_le T
  omega

/-- The internal nodes on a path are different ones of the n - 1 (R156 (f)). -/
theorem length_lt_of_internal (T : s.IsTree) (h : s.Leads p i) (hi : s.nodeAt i = .internal w l r) :
    p.length + 2 ≤ s.leafCount := by
  have hlen := h.length_add_le T
  obtain ⟨hn, -⟩ := T.internal_bounds (h.le_root T) hi
  have := T.root
  omega

theorem length_lt (T : s.IsTree) (h : s.Leads p i) : p.length + 1 ≤ s.leafCount := by
  cases h with
  | root =>
    have := T.root
    rw [List.length_nil]
    omega
  | child d h hi =>
    have := h.length_lt_of_internal T hi
    rw [List.length_append, List.length_singleton]
    omega

/-- The root is no child. -/
theorem child_ne_root (T : s.IsTree) (h : s.Leads p i) (hi : s.nodeAt i = .internal w l r) (d : Bool) :
    (if d then r else l) ≠ s.root := by
  intro he
  have hlt := T.child_lt (h.le_root T) hi d
  have hle := h.le_root T
  rw [he] at hlt
  omega

/-- Two paths to one node are the same: they end with the same step from the same parent (R156 (b), (c)). -/
theorem path_unique (T : s.IsTree) (h : s.Leads p i) (h' : s.Leads q j) (he : i = j) : p = q := by
  induction h generalizing q j with
  | root =>
    cases h' with
    | root => rfl
    | child d h' hj => exact absurd he.symm (h'.child_ne_root T hj d)
  | child d h hi ih =>
    cases h' with
    | root => exact absurd he (h.child_ne_root T hi d)
    | child d' h' hj =>
      obtain ⟨hij, rfl⟩ := T.parent_unique (h.le_root T) (h'.le_root T) hi hj he
      rw [ih h' hij]

end State.Leads

/-- A path to a leaf goes no further (R173 (b)). -/
theorem eq_of_follow_prefix (hp : s.follow s.root p = some x) (hq : s.follow s.root q = some y) (h : p <+: q) :
    x = y := by
  obtain ⟨i, hi, hx⟩ := State.Leads.root.exists_of_follow hp
  obtain ⟨r, rfl⟩ := h
  rw [← List.nil_append p, hi.follow_append] at hq
  cases hn : s.nodeAt i with
  | leaf z w =>
    rw [hn] at hx
    exact (Option.some.inj hx).symm.trans ((follow_of_leaf hn).1 hq).2.symm
  | internal => simp [hn, nodeSymbol] at hx

namespace State.IsTree
variable (T : s.IsTree)
include T

/-- Every node of the tree is reached: its parent is, which has a greater index (R156 (b)). -/
theorem exists_leads (j : NodeIx) (hj : j.toNat ≤ s.root.toNat) : ∃ p, s.Leads p j := by
  induction hk : s.root.toNat - j.toNat using Nat.strong_induction_on generalizing j with
  | _ k ih =>
    rcases hj.eq_or_lt with he | hlt
    · obtain rfl : j = s.root := BitVec.eq_of_toNat_eq he
      exact ⟨[], .root⟩
    · obtain ⟨i, w, l, r, d, hi, hat, rfl⟩ := T.exists_parent (T.mem_childIndices_of_lt hlt)
      have hlt := T.child_lt hi hat d
      obtain ⟨p, hp⟩ := ih (s.root.toNat - i.toNat) (by omega) i hi rfl
      exact ⟨_, hp.child d hat⟩

theorem mem_symbols_iff : x ∈ s.node.filterMap nodeSymbol ↔ ∃ p, s.follow s.root p = some x := by
  rw [List.mem_filterMap]
  constructor
  · rintro ⟨nd, hnd, hx⟩
    obtain ⟨i, hi, rfl⟩ := T.exists_nodeAt hnd
    obtain ⟨p, hp⟩ := T.exists_leads i hi
    exact ⟨p ++ [], (hp.follow_append []).trans hx⟩
  · rintro ⟨p, hp⟩
    obtain ⟨i, hi, hx⟩ := State.Leads.root.exists_of_follow hp
    exact ⟨s.nodeAt i, List.mem_of_getElem? (T.getElem?_nodeAt (hi.le_root T)), hx⟩

/-- One path leads to a symbol (R173 (b)). -/
theorem follow_unique (hp : s.follow s.root p = some x) (hq : s.follow s.root q = some x) : p = q := by
  obtain ⟨i, hi, hx⟩ := State.Leads.root.exists_of_follow hp
  obtain ⟨j, hj, hy⟩ := State.Leads.root.exists_of_follow hq
  exact hi.path_unique T hj (T.leaf_unique (hi.le_root T) (hj.le_root T) hx hy)

end State.IsTree

/-! ## The walk -/

/-- The walk lists each symbol below a node with the digits gathered before it and those that lead on to it (R170). -/
theorem mem_walk_iff (T : s.IsTree) (fuel : Nat) : ∀ {i : NodeIx} {p : Digits}, i.toNat < fuel →
    i.toNat ≤ s.root.toNat → ((x, q) ∈ s.walk fuel i p ↔ ∃ q', q = p ++ q' ∧ s.follow i q' = some x) := by
  induction fuel with
  | zero => exact fun h => absurd h (Nat.not_lt_zero _)
  | succ fuel ih =>
    intro i p hf hi
    cases hn : s.nodeAt i with
    | leaf y w => simp [walk_leaf hn, follow_of_leaf hn, and_comm]
    | internal w l r =>
      obtain ⟨-, hl, hr⟩ := T.internal_bounds hi hn
      rw [walk_internal hn, List.mem_append, ih (by omega) (by omega), ih (by omega) (by omega)]
      simp only [follow_of_internal hn, List.append_assoc, List.singleton_append]
      constructor
      · rintro (⟨q', rfl, hq⟩ | ⟨q', rfl, hq⟩)
        · exact ⟨false :: q', rfl, false, q', rfl, hq⟩
        · exact ⟨true :: q', rfl, true, q', rfl, hq⟩
      · rintro ⟨_, rfl, d, q', rfl, hq⟩
        cases d
        · exact .inl ⟨q', rfl, hq⟩
        · exact .inr ⟨q', rfl, hq⟩

theorem prefix_of_mem_walk (fuel : Nat) : ∀ {i : NodeIx} {p : Digits} {c : Sym × Digits},
    c ∈ s.walk fuel i p → p <+: c.2 := by
  induction fuel with
  | zero => simp [State.walk]
  | succ fuel ih =>
    intro i p c hc
    cases hn : s.nodeAt i with
    | leaf y w =>
      rw [walk_leaf hn, List.mem_singleton] at hc
      exact hc ▸ List.prefix_rfl
    | internal w l r =>
      rw [walk_internal hn, List.mem_append] at hc
      rcases hc with hc | hc <;> exact (List.prefix_append p _).trans (ih hc)

/-- The words of the left subtree go on with 0 and those of the right with 1, so the walk names none twice. -/
theorem nodup_walk (fuel : Nat) : ∀ (i : NodeIx) (p : Digits), (s.walk fuel i p).Nodup := by
  induction fuel with
  | zero => simp [State.walk]
  | succ fuel ih =>
    intro i p
    cases hn : s.nodeAt i with
    | leaf y w => simp [walk_leaf hn]
    | internal w l r =>
      rw [walk_internal hn]
      refine (ih l _).append (ih r _) fun c hl hr => ?_
      have hpre : p ++ [false] <+: p ++ [true] :=
        List.prefix_of_prefix_length_le (prefix_of_mem_walk fuel hl) (prefix_of_mem_walk fuel hr) (by simp)
      simpa using hpre.eq_of_length (by simp)

/-- The code words below a node share out its 2^(-length) among them, in units of 2^(-255): each internal node gives half
of it to either child (R173 (d)). -/
theorem kraft_walk (T : s.IsTree) (fuel : Nat) : ∀ {i : NodeIx} {p : Digits}, i.toNat < fuel → s.Leads p i →
    ((s.walk fuel i p).map fun c => 2 ^ (255 - c.2.length)).sum = 2 ^ (255 - p.length) := by
  induction fuel with
  | zero => exact fun h => absurd h (Nat.not_lt_zero _)
  | succ fuel ih =>
    intro i p hf h
    cases hn : s.nodeAt i with
    | leaf y w => simp [walk_leaf hn]
    | internal w l r =>
      obtain ⟨-, hl, hr⟩ := T.internal_bounds (h.le_root T) hn
      have hlen := h.length_lt_of_internal T hn
      have hle := T.leafCount_le
      have hsub : 255 - p.length = 255 - (p.length + 1) + 1 := by omega
      have hleft : s.Leads (p ++ [false]) l := h.child false hn
      have hright : s.Leads (p ++ [true]) r := h.child true hn
      rw [walk_internal hn, List.map_append, List.sum_append, ih (by omega) hleft, ih (by omega) hright,
        List.length_append, List.length_append, List.length_singleton, List.length_singleton, hsub, pow_succ, mul_two]

/-! ## The code words of the tree -/

/-- A lone leaf gets the digit 0; else the walk from the root lists the code words (R170, R171). -/
theorem State.IsTree.codeWords_cases (T : s.IsTree) :
    (∃ x w, s.nodeAt s.root = .leaf x w ∧ s.leafCount = 1 ∧ s.codeWords = [(x, [false])]) ∨
    (nodeSymbol (s.nodeAt s.root) = none ∧ 2 ≤ s.leafCount ∧ s.codeWords = s.walk Config.nodeMax s.root []) := by
  have hroot := T.root
  cases hn : s.nodeAt s.root with
  | leaf x w =>
    have hlt := T.leaf_lt le_rfl (x := x) (by rw [hn, nodeSymbol])
    exact .inl ⟨x, w, rfl, by omega, by simp [State.codeWords, hn]⟩
  | internal w l r =>
    obtain ⟨hle, hl, -⟩ := T.internal_bounds le_rfl hn
    exact .inr ⟨rfl, by omega, by simp [State.codeWords, hn]⟩

namespace State.IsTree
variable (T : s.IsTree)
include T

theorem root_lt_nodeMax : s.root.toNat < Config.nodeMax := by
  have := T.root
  have := T.leafCount_le
  rw [Config.nodeMax]
  omega

theorem mem_walk_root_iff : (x, p) ∈ s.walk Config.nodeMax s.root [] ↔ s.follow s.root p = some x := by
  simp [mem_walk_iff T _ T.root_lt_nodeMax le_rfl]

theorem codeWords_of_leaf (h : nodeSymbol (s.nodeAt s.root) = some x) : s.codeWords = [(x, [false])] := by
  rcases T.codeWords_cases with ⟨y, w, hroot, -, hcs⟩ | ⟨hn, -⟩
  · rw [hroot] at h
    rwa [← Option.some.inj h]
  · exact absurd (h.symm.trans hn) (Option.some_ne_none x)

theorem mem_codeWords_iff_follow (h : nodeSymbol (s.nodeAt s.root) = none) :
    (x, p) ∈ s.codeWords ↔ s.follow s.root p = some x := by
  rcases T.codeWords_cases with ⟨y, w, hroot, -⟩ | ⟨-, -, hcs⟩
  · rw [hroot] at h
    exact absurd h (Option.some_ne_none y)
  · rw [hcs, T.mem_walk_root_iff]

/-- The symbols with code words are those of the tree (R173 (a)). -/
theorem exists_mem_codeWords_iff : (∃ p, (x, p) ∈ s.codeWords) ↔ x ∈ s.node.filterMap nodeSymbol := by
  rw [T.mem_symbols_iff]
  rcases T.codeWords_cases with ⟨y, w, hroot, -, hcs⟩ | ⟨hn, -⟩
  · simp [hcs, follow_of_leaf hroot]
  · simp only [T.mem_codeWords_iff_follow hn]

/-- The lengths of the code words (R172). -/
theorem length_of_mem_codeWords (h : (x, p) ∈ s.codeWords) :
    1 ≤ p.length ∧ (s.leafCount = 1 → p.length = 1) ∧ (2 ≤ s.leafCount → p.length + 1 ≤ s.leafCount) := by
  rcases T.codeWords_cases with ⟨y, -, -, hone, hcs⟩ | ⟨hn, htwo, -⟩
  · obtain ⟨rfl, rfl⟩ : x = y ∧ p = [false] := by simpa [hcs] using h
    exact ⟨le_rfl, fun _ => rfl, fun h => by omega⟩
  · rw [T.mem_codeWords_iff_follow hn] at h
    obtain ⟨i, hi, -⟩ := State.Leads.root.exists_of_follow h
    have hne : p ≠ [] := by
      rintro rfl
      exact absurd (h.symm.trans hn) (Option.some_ne_none x)
    exact ⟨List.length_pos_of_ne_nil hne, fun h => by omega, fun _ => hi.length_lt T⟩

theorem length_le_of_mem_codeWords (h : (x, p) ∈ s.codeWords) : p.length ≤ 255 := by
  obtain ⟨-, hone, htwo⟩ := T.length_of_mem_codeWords h
  have := T.leafCount_le
  have := T.root
  omega

/-- No code word continues another symbol's (R173 (b), (c)). -/
theorem codeWords_prefix_free (hp : (x, p) ∈ s.codeWords) (hq : (y, q) ∈ s.codeWords) (h : p <+: q) : x = y := by
  rcases T.codeWords_cases with ⟨z, -, -, -, hcs⟩ | ⟨hn, -⟩
  · rw [hcs, List.mem_singleton, Prod.mk.injEq] at hp hq
    exact hp.1.trans hq.1.symm
  · exact eq_of_follow_prefix ((T.mem_codeWords_iff_follow hn).1 hp) ((T.mem_codeWords_iff_follow hn).1 hq) h

/-- No symbol has two code words. -/
theorem nodup_codeWords_symbols : (s.codeWords.map Prod.fst).Nodup := by
  rcases T.codeWords_cases with ⟨z, -, -, -, hcs⟩ | ⟨-, -, hcs⟩
  · simp [hcs]
  · rw [hcs]
    refine List.Nodup.map_on (fun ⟨x, p⟩ hp ⟨y, q⟩ hq he => ?_) (nodup_walk _ _ _)
    obtain rfl : x = y := he
    rw [T.follow_unique (T.mem_walk_root_iff.1 hp) (T.mem_walk_root_iff.1 hq)]

theorem kraft_codeWords :
    (s.codeWords.map fun c => 2 ^ (255 - c.2.length)).sum = if s.leafCount = 1 then 2 ^ 254 else 2 ^ 255 := by
  rcases T.codeWords_cases with ⟨z, -, -, hone, hcs⟩ | ⟨-, htwo, hcs⟩
  · simp only [hcs, hone, List.map_singleton, List.sum_singleton, List.length_singleton, Nat.reduceSub, if_true]
  · rw [hcs, if_neg (by omega), kraft_walk T _ T.root_lt_nodeMax .root, List.length_nil, Nat.sub_zero]

end State.IsTree

/-! ## The table of the code words -/

@[simp] theorem tableOf_append_singleton (cs : List (Sym × Digits)) (c : Sym × Digits) :
    tableOf (cs ++ [c]) = Memory.set emptyEntry (tableOf cs) c.1 (entryOfCode c.2) := by
  simp [tableOf]

theorem get_tableOf_of_notMem {cs : List (Sym × Digits)} (h : x ∉ cs.map Prod.fst) :
    Memory.get emptyEntry (tableOf cs) x = emptyEntry := by
  induction cs using List.reverseRecOn with
  | nil => rfl
  | append_singleton cs c ih =>
    rw [List.map_append, List.mem_append, not_or, List.map_singleton, List.mem_singleton] at h
    rw [tableOf_append_singleton, Memory.get_set_of_ne h.2, ih h.1]

theorem get_tableOf_of_mem {cs : List (Sym × Digits)} (hn : (cs.map Prod.fst).Nodup) (h : (x, p) ∈ cs) :
    Memory.get emptyEntry (tableOf cs) x = entryOfCode p := by
  induction cs using List.reverseRecOn with
  | nil => simp at h
  | append_singleton cs c ih =>
    rw [List.map_append, List.nodup_append'] at hn
    obtain ⟨hn, -, hdisj⟩ := hn
    rw [tableOf_append_singleton]
    rcases List.mem_append.1 h with h | h
    · have hne : x ≠ c.1 := fun he => hdisj (List.mem_map_of_mem h) (by simp [he])
      rw [Memory.get_set_of_ne hne, ih hn h]
    · obtain rfl := List.mem_singleton.1 h
      exact Memory.get_set_self

/-! ## DERIVE -/

/-- The state after a DERIVE on a valid tree (R170). -/
def State.derived (s : State) : State := (s.setCt (tableOf s.codeWords)).finishOk

theorem exec_derive_of_valid (hv : s.treeValid = true) : exec .derive s = .next s.derived :=
  if_neg (ne_false_of_eq_true hv)

theorem eq_derived_of_exec {t : State} (hv : s.treeValid = true) (h : exec .derive s = .next t) : t = s.derived :=
  Host.Outcome.next.inj (h.symm.trans (exec_derive_of_valid hv))

theorem ctAt_derived (s : State) (x : Sym) : s.derived.ctAt x = Memory.get emptyEntry (tableOf s.codeWords) x := rfl

theorem length_codeOf (s : State) (x : Sym) : (s.codeOf x).length = (s.ctAt x).len.toNat := length_entryCode _

theorem len_eq_zero_iff (s : State) (x : Sym) : (s.ctAt x).len = 0 ↔ s.codeOf x = [] := by
  rw [← List.length_eq_zero_iff, length_codeOf, ← BitVec.toNat_inj]
  rfl

theorem codeOf_derived_of_notMem (h : ∀ p, (x, p) ∉ s.codeWords) : s.derived.codeOf x = [] := by
  rw [State.codeOf, ctAt_derived, get_tableOf_of_notMem (by simpa using h)]
  rfl

/-- The entry of a symbol without a code word is that of the empty one. -/
theorem exists_ctAt_derived_eq (T : s.IsTree) (x : Sym) :
    ∃ p, s.derived.ctAt x = entryOfCode p ∧ p.length ≤ 255 := by
  by_cases h : x ∈ s.codeWords.map Prod.fst
  · obtain ⟨⟨x, p⟩, hp, rfl⟩ := List.mem_map.1 h
    exact ⟨p, get_tableOf_of_mem T.nodup_codeWords_symbols hp, T.length_le_of_mem_codeWords hp⟩
  · refine ⟨[], ?_, by simp⟩
    rw [ctAt_derived, get_tableOf_of_notMem h]
    decide

namespace State.IsTree
variable (T : s.IsTree)
include T

theorem codeOf_derived_of_mem (h : (x, p) ∈ s.codeWords) : s.derived.codeOf x = p := by
  rw [State.codeOf, ctAt_derived, get_tableOf_of_mem T.nodup_codeWords_symbols h,
    entryCode_entryOfCode p (T.length_le_of_mem_codeWords h)]

/-- The code words DERIVE writes are those of the tree (R170). -/
theorem codeOf_derived_iff : s.derived.codeOf x = p ∧ p ≠ [] ↔ (x, p) ∈ s.codeWords := by
  constructor
  · rintro ⟨rfl, hne⟩
    by_contra hnot
    refine hne (codeOf_derived_of_notMem fun q hq => hnot ?_)
    rwa [T.codeOf_derived_of_mem hq]
  · intro h
    obtain ⟨hpos, -⟩ := T.length_of_mem_codeWords h
    exact ⟨T.codeOf_derived_of_mem h, List.ne_nil_of_length_pos hpos⟩

theorem len_derived_of_mem (h : (x, p) ∈ s.codeWords) : (s.derived.ctAt x).len.toNat = p.length := by
  rw [← length_codeOf, T.codeOf_derived_of_mem h]

theorem len_derived_ne_zero_iff : (s.derived.ctAt x).len ≠ 0 ↔ ∃ p, (x, p) ∈ s.codeWords := by
  rw [Ne, len_eq_zero_iff]
  constructor
  · exact fun h => ⟨_, T.codeOf_derived_iff.1 ⟨rfl, h⟩⟩
  · rintro ⟨p, hp⟩
    obtain ⟨rfl, hne⟩ := T.codeOf_derived_iff.2 hp
    exact hne

/-- Every word bit beyond a derived code word is 0 (R170). -/
theorem entryDigit_derived_beyond {j : Nat} (hj : (s.derived.ctAt x).len.toNat ≤ j) (hj' : j < 256) :
    entryDigit (s.derived.ctAt x) j = false := by
  obtain ⟨p, he, hp⟩ := exists_ctAt_derived_eq T x
  rw [← length_codeOf, State.codeOf, he, entryCode_entryOfCode p hp] at hj
  rw [he, entryDigit_entryOfCode p hj']
  exact List.getD_eq_default _ _ hj

/-- The symbols with a code word, in the order of the symbols and in the order of the walk. -/
theorem codeWords_symbols_perm :
    (s.codeWords.map Prod.fst).Perm (allSyms.filter fun x => (s.derived.ctAt x).len != 0) := by
  have hall : allSyms.Nodup := allSyms_pairwise.imp fun h => BitVec.ne_of_lt h
  refine (List.perm_ext_iff_of_nodup T.nodup_codeWords_symbols (hall.filter _)).2 fun x => ?_
  rw [List.mem_filter, bne_iff_ne, T.len_derived_ne_zero_iff]
  simp [mem_allSyms]

end State.IsTree
end

/-- Settles O40: follow and the walk name the same code words, and the table holds them. -/
theorem deriveGivesEveryPath : Obligations.DeriveGivesEveryPath := by
  refine ⟨by decide, fun s hv => if_pos hv, fun s hv hd ht => ?_⟩
  have T := isTree_of_valid hv hd ht
  obtain ⟨hkept, hok⟩ := (Effect.derive hv).keptBut_succeeded (by decide)
  refine ⟨s.derived, exec_derive_of_valid hv, hkept, hok, fun hn x p => ?paths, fun x hx => ?lone,
    fun x j => T.entryDigit_derived_beyond⟩
  case paths => rw [T.codeOf_derived_iff, T.mem_codeWords_iff_follow hn]
  case lone =>
    have hcs := T.codeWords_of_leaf hx
    exact ⟨T.codeOf_derived_of_mem (by simp [hcs]), fun y hy => codeOf_derived_of_notMem (by simp [hcs, hy])⟩

/-- Settles O41: the symbols of the tree are those with a code word, of the lengths of R172. -/
theorem derivedLengthsAreBounded : Obligations.DerivedLengthsAreBounded := by
  intro s t hv hd ht hx x
  have T := isTree_of_valid hv hd ht
  obtain rfl := eq_derived_of_exec hv hx
  rw [← T.exists_mem_codeWords_iff]
  refine ⟨fun h => ?_, fun ⟨p, hp⟩ => ?_⟩
  · by_contra hne
    exact h (T.len_derived_ne_zero_iff.1 hne)
  · obtain ⟨hpos, hone, htwo⟩ := T.length_of_mem_codeWords hp
    rw [← BitVec.toNat_inj, T.len_derived_of_mem hp]
    exact ⟨hpos, hone, fun h => Nat.le_sub_one_of_lt (htwo h)⟩

/-- Settles O42: none of the tree's code words continues another's, and the table holds no others. -/
theorem derivedTableIsPrefixFree : Obligations.DerivedTableIsPrefixFree := by
  intro s t hv hd ht hx x y hne hcx hcy hpre
  have T := isTree_of_valid hv hd ht
  obtain rfl := eq_derived_of_exec hv hx
  have hp := T.codeOf_derived_iff.1 ⟨rfl, hcx⟩
  have hq := T.codeOf_derived_iff.1 ⟨rfl, hcy⟩
  exact hne (T.codeWords_prefix_free hp hq hpre)

/-- Settles O43: the sum over the symbols is the sum over the walk, whose code words share out the root's weight. -/
theorem derivedLengthsMeetKraftEquality : Obligations.DerivedLengthsMeetKraftEquality := by
  intro s t hv hd ht hx
  have T := isTree_of_valid hv hd ht
  obtain rfl := eq_derived_of_exec hv hx
  rw [← T.kraft_codeWords, ← (T.codeWords_symbols_perm.map _).sum_eq, List.map_map]
  refine congrArg List.sum (List.map_congr_left fun c hc => ?_)
  rw [Function.comp_apply, T.len_derived_of_mem hc]

end Sys2Proof.Machine
end

section
/-! SUPPORT. The family of 44_encoder.md: the digits ENC appends, the digits a host reads from RDOUT's results, and the stream
that a mix of the two gives. -/

namespace Sys2Proof.Machine

/-! ## ENC -/

/-- Digit j of a code word is bit 31 - (j mod 32) of word j div 32 of its entry (R44, R45). -/
theorem getElem?_codeOf (s : State) (x : Sym) {j : Nat} (hj : j < (s.ctAt x).len.toNat) :
    (s.codeOf x)[j]? = some ((s.ctWord x (BitVec.ofNat 3 (j / 32))).getLsbD (31 - j % 32)) := by
  have hk : j / 32 < 8 := by omega
  simp [State.codeOf, entryCode, entryDigit, wordDigit, State.ctWord, hj, hk, Nat.mod_eq_of_lt hk]

/-- Settles O47: the two errors in the order of R236, and the code word appended to OUTQ digit by digit. -/
theorem encAppendsTheCodeWord : Obligations.EncAppendsTheCodeWord := by
  refine ⟨fun x => encodeThenDecode (.enc x) rfl, fun s x => ⟨fun hl => ?unknown, fun hl hf => ?full, fun hl hf => ?append⟩⟩
  case unknown => exact if_pos hl
  case full => exact (if_neg hl).trans (if_pos hf)
  case append =>
    refine ⟨(s.setOutq (s.outq ++ s.codeOf x)).finishOk, (if_neg hl).trans (if_neg (Nat.not_lt.2 hf)), ?length,
      List.prefix_append _ _, fun j hj => ?digit, (Effect.enc hl hf).keptBut_succeeded (by simp)⟩
    case length => simp [length_codeOf]
    case digit => simpa [List.getElem?_append_right] using getElem?_codeOf s x hj

/-! ## RDOUT -/

/-- The bit count in RESULT1 is the number of bits taken from OUTQ (R191). -/
theorem toNat_rdout_count {n : Nat} (hn : n ≤ 32) (q : Digits) :
    (BitVec.ofNat 32 (min n q.length)).toNat = (q.take n).length := by
  rw [BitVec.toNat_ofNat, List.length_take, Nat.mod_eq_of_lt (by omega)]

/-- A host that reads as many digits of a packed word as were packed gets those digits back (R66). -/
theorem map_wordDigit_packWord {ds : Digits} (h : ds.length ≤ 32) :
    (List.range ds.length).map (wordDigit (packWord ds)) = ds := by
  refine List.ext_getElem (by simp) fun j h₁ h₂ => ?_
  simp [wordDigit_packWord ds (Nat.lt_of_lt_of_le h₂ h), List.getD_eq_getElem?_getD, h₂]

/-- Settles O48: a packed word holds the digits taken, and 0 past their end. -/
theorem rdoutTakesBitsFromTheFront : Obligations.RdoutTakesBitsFromTheFront := by
  refine ⟨fun n h₁ h₂ => ?decode, fun s n _ hn => ⟨_, rfl, ?count, fun j hj => ?digit, ?rest,
    Effect.rdout.keptBut_succeeded (by simp)⟩⟩
  case decode =>
    rw [← ofNat_setWidth_of_lt (x := n - 1) (k := 5) (by omega) (by decide)]
    exact encodeThenDecode (.rdout n) ((countOk_iff n).2 ⟨h₁, h₂⟩)
  case count => exact (toNat_rdout_count hn s.outq).trans List.length_take
  case digit =>
    refine (wordDigit_packWord (s.outq.take n) hj).trans ?_
    split
    · next h =>
      rw [List.getD_eq_getElem?_getD, List.getElem?_take_of_lt (h.trans_le (min_le_left _ _)), ← List.getD_eq_getElem?_getD]
    · next h => exact List.getD_eq_default _ _ (List.length_take ▸ Nat.not_lt.1 h)
  case rest => exact List.drop_eq_drop_iff.2 (by simp)

/-! ## The stream -/

/-- A run of one command that raises no error applies its writes and the status of a success (R131). -/
theorem effect_of_runAll_singleton {i : Instr} {s t : State} (h : runAll [i] s = some t) :
    ∃ u, Effect s i u ∧ t = u.finishOk := by
  rcases exec_cases i s with ⟨e, -, hx⟩ | ⟨u, hu, hx⟩
  · have he : e.code ≠ 0#4 := bne_iff_ne.1 (code_bne_zero e)
    simp [runAll, hx, raise, he] at h
  · exact ⟨u, hu, by simpa [runAll, hx, ok, eq_comm] using h⟩

/-- A successful ENC appends the code word to OUTQ and leaves every code word as it was (R190). -/
theorem outq_eq_of_runAll_enc {s t : State} {x : Sym} (h : runAll [.enc x] s = some t) :
    t.outq = s.outq ++ s.codeOf x ∧ t.codeOf = s.codeOf := by
  obtain ⟨u, hu, rfl⟩ := effect_of_runAll_singleton h
  cases hu
  exact ⟨rfl, rfl⟩

/-- The bits a host reads from RDOUT's results, followed by what is left of OUTQ, are OUTQ as it was; every code word is as it
was (R191). -/
theorem read_append_outq_of_runAll_rdout {s t : State} {n : Nat} (hn : n ≤ 32) (h : runAll [.rdout n] s = some t) :
    (List.range t.result1.toNat).map (wordDigit t.result0) ++ t.outq = s.outq ∧ t.codeOf = s.codeOf := by
  obtain ⟨u, hu, rfl⟩ := effect_of_runAll_singleton h
  cases hu
  refine ⟨?_, rfl⟩
  have hlen : (s.outq.take n).length ≤ 32 := (List.length_take_le n s.outq).trans hn
  simp only [finishOk_result0, finishOk_result1, finishOk_outq, setResults_result0, setResults_result1, setResults_outq,
    setOutq_outq]
  rw [toNat_rdout_count hn, map_wordDigit_packWord hlen, List.take_append_drop]

/-- Settles O49: by induction on the operations; each keeps the stream's equation and the code words. -/
theorem streamIsTheCodeWordsInOrder : Obligations.StreamIsTheCodeWordsInOrder := by
  intro os
  induction os with
  | nil =>
    intro s t bits _ h
    obtain ⟨rfl, rfl⟩ : s = t ∧ [] = bits := by simpa [runEnc] using h
    simp [encoded]
  | cons o os ih =>
    intro s t bits hn h
    have hos : ∀ n, EncOp.rdout n ∈ os → 1 ≤ n ∧ n ≤ 32 := fun n h => hn n (List.mem_cons_of_mem _ h)
    cases o with
    | enc x =>
      obtain ⟨v, hv, h⟩ := Option.bind_eq_some_iff.1 h
      obtain ⟨hq, hc⟩ := outq_eq_of_runAll_enc hv
      rw [ih v t bits hos h, hq, hc, encoded, List.flatMap_cons, List.append_assoc]
    | rdout n =>
      obtain ⟨v, hv, h⟩ := Option.bind_eq_some_iff.1 h
      obtain ⟨⟨t', rest⟩, hr, he⟩ := Option.map_eq_some_iff.1 h
      obtain ⟨rfl, rfl⟩ := Prod.mk.inj he
      obtain ⟨hq, hc⟩ := read_append_outq_of_runAll_rdout (hn n List.mem_cons_self).2 hv
      rw [List.append_assoc, ih v t' rest hos hr, ← List.append_assoc, hq, hc, encoded]

end Sys2Proof.Machine
end

section
/-! SUPPORT. The family of 45_decoder.md: DECEND and POPSYM, one digit in each of its cases, DEC, and the round trip of a sequence
through the encoder and the decoder. -/

namespace Sys2Proof.Machine

/-! ## DECEND -/

/-- ACC_NE is clear exactly on an empty accumulator (R34). -/
theorem accNe_eq_false_iff (s : State) : s.accNe = false ↔ s.accLen = 0 ∧ s.accOvf = false := by
  simp [State.accNe]

theorem exec_decend_of_accNe {s : State} (h : s.accNe = true) : exec .decend s = .next (failedWith 3 s) := if_pos h

theorem exec_decend_of_empty {s : State} (hl : s.accLen = 0) (ho : s.accOvf = false) :
    exec .decend s = .next s.finishOk :=
  if_neg (by simp [(accNe_eq_false_iff s).2 ⟨hl, ho⟩])

/-- Settles O54: the two values of ACC_NE. -/
theorem decendChecksTheAccumulator : Obligations.DecendChecksTheAccumulator :=
  ⟨by decide, fun s => ⟨fun h => exec_decend_of_accNe (by simpa [State.accNe] using h), exec_decend_of_empty⟩⟩

/-! ## POPSYM -/

/-- The popped symbol stands in RESULT0[7:0] (R214). -/
theorem setWidth_poppedWord (x : Sym) : (poppedWord x).setWidth 8 = x := BitVec.setWidth_append_eq_right

/-- VALID stands in RESULT0[8] (R214). -/
theorem poppedWord_valid (x : Sym) : (poppedWord x).getLsbD 8 = true := by
  rw [poppedWord, BitVec.getLsbD_append]
  rfl

/-- The bits of RESULT0 above VALID are 0 (R214). -/
theorem poppedWord_high (x : Sym) : (poppedWord x).extractLsb' 9 23 = 0 := by
  rw [poppedWord, BitVec.append_assoc]
  exact BitVec.extractLsb'_append_eq_left

theorem exec_popsym_of_nil {s : State} (h : s.symq = []) : exec .popsym s = ok (s.setResults 0 0) := by
  simp [exec, execPopsym, h]

theorem exec_popsym_of_cons {s : State} {x : Sym} {q : List Sym} (h : s.symq = x :: q) :
    exec .popsym s = ok ((s.setSymq q).setResults (poppedWord x) (BitVec.ofNat 32 q.length)) := by
  simp [exec, execPopsym, h]

/-- Settles O55: the empty and the non-empty SYMQ. -/
theorem popsymTakesTheFrontSymbol : Obligations.PopsymTakesTheFrontSymbol := by
  refine ⟨by decide, fun s => ?_⟩
  cases hq : s.symq with
  | nil =>
    obtain ⟨hk, hs⟩ := (Effect.popsymEmpty hq).keptBut_succeeded (by decide)
    exact ⟨_, exec_popsym_of_nil hq, hk, hs, hq, fun _ => ⟨rfl, rfl⟩, fun _ _ h => absurd h.symm (List.cons_ne_nil _ _)⟩
  | cons y r =>
    obtain ⟨hk, hs⟩ := (Effect.popsym hq).keptBut_succeeded (by decide)
    refine ⟨_, exec_popsym_of_cons hq, hk, hs, rfl, fun h => absurd h (List.cons_ne_nil _ _), fun x q h => ?_⟩
    obtain ⟨rfl, rfl⟩ := List.cons.inj h
    exact ⟨setWidth_poppedWord y, poppedWord_valid y, poppedWord_high y, rfl⟩

/-! ## One digit -/

/-- Once ACC_OVF is set a digit is discarded (R212). -/
theorem digit_of_accOvf {s : State} (h : s.accOvf = true) (d : Bool) : s.digit d = s := if_pos h

theorem digits_of_accOvf {s : State} (h : s.accOvf = true) (ds : Digits) : s.digits ds = s := by
  induction ds with
  | nil => rfl
  | cons d ds ih => rw [digits_cons, digit_of_accOvf h, ih]

/-- A digit over a full accumulator sets ACC_OVF (R211). -/
theorem digit_of_full {s : State} (ho : s.accOvf = false) (hl : s.accLen = 255) (d : Bool) :
    s.digit d = s.setAcc s.acc s.accLen true := by
  simp [State.digit, ho, hl, Config.maxLen]

section Match

variable {s : State} (hl : s.accLen ≠ 255) (d : Bool)
include hl

/-- Below a full accumulator the 8-bit length of the accumulator with one digit more does not wrap (R47, R211). -/
theorem toNat_accLen_add_one : (s.accLen + 1).toNat = s.accLen.toNat + 1 := by
  have hne : s.accLen.toNat ≠ 255 := fun h => hl (BitVec.eq_of_toNat_eq h)
  have hlt := s.accLen.isLt
  rw [BitVec.toNat_add, show (1 : BitVec 8).toNat = 1 from rfl]
  omega

/-- An entry matches the lengthened accumulator where its code word is that accumulator (R211). -/
theorem matchesAcc_pushDigit_iff (x : Sym) :
    (s.pushDigit d).matchesAcc (s.ctAt x) = true ↔ isMatch s (s.accLen.toNat + 1) (s.acc ++ [d]) x := by
  rw [isMatch, ← toNat_accLen_add_one hl, BitVec.toNat_inj]
  simp [State.matchesAcc, State.pushDigit, State.codeOf]

/-- The match of the lengthened accumulator is the lowest symbol whose code word it is (R211). -/
theorem matched_pushDigit_iff (hct : Memory.wf emptyEntry s.ct) (x : Sym) :
    (s.pushDigit d).matched = some x ↔
      isMatch s (s.accLen.toNat + 1) (s.acc ++ [d]) x ∧
        ∀ y < x, ¬ isMatch s (s.accLen.toNat + 1) (s.acc ++ [d]) y := by
  have hpos : (s.pushDigit d).accLen ≠ 0 := fun h => by
    have h' := (toNat_accLen_add_one hl).symm.trans (congrArg BitVec.toNat h)
    exact absurd h' (Nat.succ_ne_zero _)
  rw [matched_eq_some_iff (s.pushDigit d) hct hpos]
  simp only [← matchesAcc_pushDigit_iff hl, Bool.not_eq_true]
  rfl

variable (ho : s.accOvf = false) (hct : Memory.wf emptyEntry s.ct)
include ho hct

/-- A digit that completes a code word emits the lowest symbol that has it, and empties the accumulator (R211). -/
theorem digit_of_isMatch {x : Sym} (hx : isMatch s (s.accLen.toNat + 1) (s.acc ++ [d]) x)
    (hmin : ∀ y < x, ¬ isMatch s (s.accLen.toNat + 1) (s.acc ++ [d]) y) :
    s.digit d = (s.setAcc [] 0 false).setSymq (s.symq ++ [x]) := by
  have hm := (matched_pushDigit_iff hl d hct x).2 ⟨hx, hmin⟩
  rcases digit_cases s d with ⟨h, -⟩ | ⟨-, h, -⟩ | ⟨-, -, h, -⟩ | ⟨y, -, -, h, hd⟩
  · exact absurd (ho.symm.trans h) Bool.false_ne_true
  · exact absurd h hl
  · exact absurd (h.symm.trans hm) (Option.some_ne_none x).symm
  · rw [hd, Option.some.inj (h.symm.trans hm)]

/-- A digit that completes no code word only lengthens the accumulator (R211). -/
theorem digit_of_no_isMatch (hno : ∀ x, ¬ isMatch s (s.accLen.toNat + 1) (s.acc ++ [d]) x) :
    s.digit d = s.pushDigit d := by
  rcases digit_cases s d with ⟨h, -⟩ | ⟨-, h, -⟩ | ⟨-, -, -, hd⟩ | ⟨x, -, -, h, -⟩
  · exact absurd (ho.symm.trans h) Bool.false_ne_true
  · exact absurd h hl
  · exact hd
  · exact absurd ((matched_pushDigit_iff hl d hct x).1 h).1 (hno x)

end Match

/-! ## DEC -/

/-- DEC is admitted where SYMQ has room for n symbols (R210, R216). -/
theorem exec_dec_of_room {s : State} {n : Nat} (h : n ≤ 32 - s.symq.length) :
    exec (.dec n) s = .next (s.digits (s.dataDigits n)).finishOk :=
  if_neg (Nat.not_lt.2 h)

theorem exec_dec_of_no_room {s : State} {n : Nat} (h : 32 - s.symq.length < n) :
    exec (.dec n) s = .next (failedWith 10 s) :=
  if_pos h

/-- Settles O53: discarded digits leave the status alone to be written. -/
theorem overflowDiscardsEveryDigit : Obligations.OverflowDiscardsEveryDigit := by
  intro s n ho _ _ hn
  refine ⟨?_, exec_decend_of_accNe (by simp [State.accNe, ho])⟩
  rw [exec_dec_of_room hn, digits_of_accOvf ho]
  rfl

/-- A digit leaves the symbols in SYMQ where they are (R211). -/
theorem symq_prefix_digit (s : State) (d : Bool) : s.symq <+: (s.digit d).symq := by
  rcases digit_cases s d with ⟨-, hd⟩ | ⟨-, -, hd⟩ | ⟨-, -, -, hd⟩ | ⟨x, -, -, -, hd⟩ <;>
    simp [hd, State.pushDigit]

theorem symq_prefix_digits (s : State) (ds : Digits) : s.symq <+: (s.digits ds).symq := by
  induction ds generalizing s with
  | nil => exact List.prefix_rfl
  | cons d ds ih => exact (symq_prefix_digit s d).trans (ih _)

/-- Settles O50: the two cases of the room in SYMQ; the symbols appended are no more than the digits. -/
theorem decIsAllOrNothing : Obligations.DecIsAllOrNothing := by
  refine ⟨fun n h₁ h₂ => ?decode, fun s n _ _ => ⟨exec_dec_of_no_room, fun hn => ?room⟩⟩
  case decode =>
    rw [← ofNat_setWidth_of_lt (x := n - 1) (k := 5) (by omega) (by decide)]
    exact encodeThenDecode (.dec n) ((countOk_iff n).2 ⟨h₁, h₂⟩)
  case room =>
    obtain ⟨new, hnew⟩ := symq_prefix_digits s (s.dataDigits n)
    have hle := length_symq_digits_le s (s.dataDigits n)
    rw [← hnew, List.length_append, length_dataDigits] at hle
    exact ⟨_, exec_dec_of_room hn, ⟨new, hnew.symm, by omega⟩, (Effect.dec hn).keptBut_succeeded (by simp)⟩

/-- Settles O51: the four cases of a digit under a success. -/
theorem decTakesOneDigit : Obligations.DecTakesOneDigit := by
  rintro s ⟨-, hct⟩ hroom
  have hn : 1 ≤ 32 - s.symq.length := by omega
  obtain ⟨hkept, hok⟩ := (Effect.dec hn).keptBut_succeeded (by simp)
  refine ⟨(s.digit (s.curData.getLsbD 31)).finishOk, exec_dec_of_room hn, hkept, hok, fun ho => ?discarded,
    fun ho hl => ?full, fun ho hl => ⟨fun x hx hmin => ?emits, fun hno => ?lengthens⟩⟩
  case discarded =>
    rw [digit_of_accOvf ho]
    exact ⟨rfl, rfl, ho, rfl⟩
  case full =>
    rw [digit_of_full ho hl]
    exact ⟨rfl, hl, rfl, rfl⟩
  case emits =>
    rw [digit_of_isMatch hl _ ho hct hx hmin]
    exact ⟨rfl, rfl, rfl, rfl⟩
  case lengthens =>
    rw [digit_of_no_isMatch hl _ ho hct hno]
    exact ⟨rfl, toNat_accLen_add_one hl, ho, rfl⟩

/-! ## A stream cut into two commands -/

/-- `s` with its command completed and the operand `v` latched for the next one (R130, R131). -/
def State.nextOperand (v : Word) (s : State) : State := { s.finishOk with curData := v }

/-- A digit reads neither the status nor the operand latch (R211). -/
theorem digit_nextOperand (s : State) (v : Word) (d : Bool) : (s.nextOperand v).digit d = (s.digit d).nextOperand v := by
  have hm : ((s.nextOperand v).pushDigit d).matched = (s.pushDigit d).matched := rfl
  unfold State.digit
  rw [hm, apply_ite (State.nextOperand v), apply_ite (State.nextOperand v)]
  cases (s.pushDigit d).matched <;> rfl

theorem digits_nextOperand (s : State) (v : Word) (ds : Digits) :
    (s.nextOperand v).digits ds = (s.digits ds).nextOperand v := by
  induction ds generalizing s with
  | nil => rfl
  | cons d ds ih => rw [digits_cons, digits_cons, digit_nextOperand, ih]

/-- The operand shifted left by m digits begins with digit m (R66, R210). -/
theorem wordDigit_shiftLeft (w : Word) {m j : Nat} (h : m + j < 32) : wordDigit (w <<< m) j = wordDigit w (m + j) := by
  have hj : ¬ 31 - j < m := by omega
  have hlt : 31 - j < 32 := by omega
  rw [wordDigit, wordDigit, BitVec.getLsbD_shiftLeft, Nat.sub_sub, Nat.add_comm j m]
  simp [hj, hlt]

/-- The digits of an operand are its first m and those of the operand shifted past them (R210). -/
theorem dataDigits_add (s t : State) {m k : Nat} (h : m + k ≤ 32) :
    s.dataDigits (m + k) = s.dataDigits m ++ (t.nextOperand (s.curData <<< m)).dataDigits k := by
  rw [State.dataDigits, List.range_add, List.map_append, List.map_map]
  refine congrArg _ (List.map_congr_left fun j hj => ?_)
  rw [List.mem_range] at hj
  exact (wordDigit_shiftLeft s.curData (by omega)).symm

/-- Settles O52: the digits of the whole are those of the parts, and the first part leaves room for the second. -/
theorem decCutAnywhere : Obligations.DecCutAnywhere := by
  intro s t m k _ _ hmk h he
  have hroom : m + k ≤ 32 - s.symq.length := by
    by_contra hno
    rw [exec_dec_of_no_room (Nat.not_le.1 hno), Host.Outcome.next.injEq] at h
    subst h
    exact absurd he (by simp [failedWith])
  rw [exec_dec_of_room hroom, Host.Outcome.next.injEq] at h
  subst h
  have hle := length_symq_digits_le s (s.dataDigits m)
  rw [length_dataDigits] at hle
  refine ⟨_, exec_dec_of_room (by omega), rfl, ?_⟩
  have hsecond : k ≤ 32 - ((s.digits (s.dataDigits m)).nextOperand (s.curData <<< m)).symq.length := by
    change k ≤ 32 - (s.digits (s.dataDigits m)).symq.length
    omega
  refine (exec_dec_of_room hsecond).trans ?_
  rw [digits_nextOperand, ← digits_append, ← dataDigits_add s _ hmk]
  rfl

/-! ## Decoding a stream of code words -/

/-- The code table can be decoded: CT is in canonical form, and no code word begins another symbol's (R173). -/
structure State.PrefixFree (s : State) : Prop where
  ct : Memory.wf emptyEntry s.ct
  unique : ∀ x y, s.codeOf x ≠ [] → s.codeOf x <+: s.codeOf y → x = y

/-- The code words are a fact about CT (R44). -/
theorem codeOf_congr {s t : State} (h : t.ct = s.ct) : t.codeOf = s.codeOf := by
  funext x
  rw [State.codeOf, State.ctAt, h]
  rfl

theorem State.PrefixFree.congr {s t : State} (h : s.PrefixFree) (hct : t.ct = s.ct) : t.PrefixFree :=
  ⟨hct ▸ h.ct, codeOf_congr hct ▸ h.unique⟩

/-- `s.Decoding zs rest`: the decoder at `s` is about to give `zs` for the digits `rest`. They complete the accumulator to the
code words of `zs`, and the accumulator holds no whole code word (R211, R218). -/
structure State.Decoding (s : State) (zs : List Sym) (rest : Digits) : Prop where
  table : s.PrefixFree
  coded : ∀ z ∈ zs, s.codeOf z ≠ []
  stream : s.acc ++ rest = zs.flatMap s.codeOf
  incomplete : ∀ x, s.codeOf x ≠ [] → ¬ s.codeOf x <+: s.acc
  accOk : s.AccOk
  ovf : s.accOvf = false

namespace State.Decoding

variable {s t : State} {z : Sym} {zs : List Sym} {d : Bool} {ds rest : Digits}

/-- What is being decoded is a fact about CT and the accumulator. -/
theorem congr (h : s.Decoding zs rest) (hct : t.ct = s.ct) (hacc : Part.acc.Same s t) : t.Decoding zs rest := by
  obtain ⟨ha, hl, ho⟩ := hacc
  have hcode := codeOf_congr hct
  exact ⟨h.table.congr hct, hcode ▸ h.coded, by rw [ha, hcode, h.stream], by rw [ha, hcode]; exact h.incomplete,
    by rw [State.AccOk, ha, hl, ho]; exact h.accOk, ho.trans h.ovf⟩

/-- An accumulator that holds no whole code word ends short of the next one. -/
theorem length_acc_lt (h : s.Decoding (z :: zs) rest) : s.acc.length < (s.codeOf z).length := by
  by_contra hle
  refine h.incomplete z (h.coded z List.mem_cons_self) (List.prefix_of_prefix_length_le (l₃ := s.acc ++ rest) ?_
    (List.prefix_append _ _) (Nat.not_lt.1 hle))
  rw [h.stream]
  exact List.prefix_append _ _

/-- Where the digits have ended, everything is decoded and the accumulator is empty (R218). -/
theorem eq_nil (h : s.Decoding zs []) : zs = [] ∧ s.acc = [] ∧ s.accLen = 0 := by
  have hs := h.stream
  rw [List.append_nil] at hs
  cases zs with
  | nil =>
    have hacc : s.acc = [] := hs
    obtain ⟨hlen, -⟩ := h.accOk
    rw [hacc] at hlen
    exact ⟨rfl, hacc, BitVec.eq_of_toNat_eq hlen.symm⟩
  | cons z zs =>
    have hlt := h.length_acc_lt
    rw [hs, List.flatMap_cons, List.length_append] at hlt
    omega

/-- There is a symbol left to decode while there are digits left. -/
theorem ne_nil (h : s.Decoding zs (d :: rest)) : zs ≠ [] := by
  rintro rfl
  exact absurd h.stream (by simp)

/-- The next digit goes on with the next code word. -/
theorem push_prefix (h : s.Decoding (z :: zs) (d :: rest)) : s.acc ++ [d] <+: s.codeOf z := by
  refine List.prefix_of_prefix_length_le (l₃ := s.acc ++ d :: rest) ⟨rest, by simp⟩ ?_ ?_
  · rw [h.stream]
    exact List.prefix_append _ _
  · rw [List.length_append, List.length_singleton]
    exact h.length_acc_lt

theorem accLen_ne (h : s.Decoding (z :: zs) rest) : s.accLen ≠ 255 := by
  intro hfull
  obtain ⟨hlen, -⟩ := h.accOk
  have hlt := h.length_acc_lt
  rw [hlen, hfull, length_codeOf] at hlt
  have hmax := (s.ctAt z).len.isLt
  have h255 : (255 : BitVec 8).toNat = 255 := rfl
  omega

/-- Only the next symbol can match the lengthened accumulator, since its code word continues it (R173). -/
theorem isMatch_iff (h : s.Decoding (z :: zs) (d :: rest)) (x : Sym) :
    isMatch s (s.accLen.toNat + 1) (s.acc ++ [d]) x ↔ x = z ∧ s.codeOf z = s.acc ++ [d] := by
  constructor
  · rintro ⟨-, hx⟩
    have hne : s.codeOf x ≠ [] := by simp [hx]
    obtain rfl := h.table.unique x z hne (hx ▸ h.push_prefix)
    exact ⟨rfl, hx⟩
  · rintro ⟨rfl, hx⟩
    obtain ⟨hlen, -⟩ := h.accOk
    refine ⟨?_, hx⟩
    rw [← length_codeOf, hx, List.length_append, List.length_singleton, hlen]

/-- A digit that ends the next code word emits its symbol (R211). -/
theorem digit_of_eq (h : s.Decoding (z :: zs) (d :: rest)) (hz : s.codeOf z = s.acc ++ [d]) :
    (s.digit d).symq = s.symq ++ [z] ∧ (s.digit d).Decoding zs rest := by
  have hd := digit_of_isMatch h.accLen_ne d h.ovf h.table.ct ((h.isMatch_iff z).2 ⟨rfl, hz⟩)
    fun y hy hm => BitVec.ne_of_lt hy ((h.isMatch_iff y).1 hm).1
  have hstream : rest = zs.flatMap s.codeOf := by
    have hs := h.stream
    rw [List.flatMap_cons, hz, List.append_cons] at hs
    exact List.append_cancel_left hs
  refine ⟨by rw [hd]; rfl, ?_⟩
  rw [hd]
  exact ⟨h.table.congr rfl, fun y hy => h.coded y (List.mem_cons_of_mem _ hy), hstream,
    fun _ hne hpre => hne (List.prefix_nil.1 hpre), ⟨rfl, fun he => absurd he Bool.false_ne_true⟩, rfl⟩

/-- A digit inside the next code word lengthens the accumulator (R211). -/
theorem digit_of_ne (h : s.Decoding (z :: zs) (d :: rest)) (hz : s.codeOf z ≠ s.acc ++ [d]) :
    (s.digit d).symq = s.symq ∧ (s.digit d).Decoding (z :: zs) rest := by
  have hd := digit_of_no_isMatch h.accLen_ne d h.ovf h.table.ct fun x hm => hz ((h.isMatch_iff x).1 hm).2
  have hopen : ∀ x, s.codeOf x ≠ [] → ¬ s.codeOf x <+: s.acc ++ [d] := by
    intro x hne hpre
    obtain rfl := h.table.unique x z hne (hpre.trans h.push_prefix)
    exact hz (hpre.eq_of_length_le h.push_prefix.length_le)
  have hacc := digit_accOk h.accOk d
  rw [hd] at hacc ⊢
  exact ⟨rfl, h.table.congr rfl, h.coded, (List.append_cons _ _ _).symm.trans h.stream, hopen, hacc, h.ovf⟩

/-- Digits of the stream move symbols from those to be decoded to SYMQ, in order (R211). -/
theorem digits (h : s.Decoding zs (ds ++ rest)) :
    ∃ ys zs', zs = ys ++ zs' ∧ (s.digits ds).symq = s.symq ++ ys ∧ (s.digits ds).Decoding zs' rest := by
  induction ds generalizing s zs with
  | nil => exact ⟨[], zs, rfl, (List.append_nil _).symm, h⟩
  | cons d ds ih =>
    obtain ⟨z, zs, rfl⟩ := List.exists_cons_of_ne_nil h.ne_nil
    by_cases hz : s.codeOf z = s.acc ++ [d]
    · obtain ⟨hq, h'⟩ := h.digit_of_eq hz
      obtain ⟨ys, zs', rfl, hq', h'⟩ := ih h'
      exact ⟨z :: ys, zs', rfl, by simp [hq', hq], h'⟩
    · obtain ⟨hq, h'⟩ := h.digit_of_ne hz
      obtain ⟨ys, zs', hzs, hq', h'⟩ := ih h'
      exact ⟨ys, zs', hzs, by rw [digits_cons, hq', hq], h'⟩

end State.Decoding

/-- A successful DEC of the next digits moves to SYMQ the symbols they complete (R210, R211). -/
theorem State.Decoding.dec {w t : State} {zs : List Sym} {n : Nat} {v : Word} {rest : Digits}
    (hw : w.Decoding zs ((List.range n).map (wordDigit v) ++ rest)) (h : runAll [.dec n] { w with curData := v } = some t) :
    ∃ ys zs', zs = ys ++ zs' ∧ t.symq = w.symq ++ ys ∧ t.Decoding zs' rest := by
  obtain ⟨u, hu, rfl⟩ := effect_of_runAll_singleton h
  cases hu
  have hv : State.Decoding { w with curData := v } zs ((List.range n).map (wordDigit v) ++ rest) :=
    hw.congr rfl ⟨rfl, rfl, rfl⟩
  obtain ⟨ys, zs', hzs, hq, hd⟩ := hv.digits
  exact ⟨ys, zs', hzs, hq, hd.congr rfl ⟨rfl, rfl, rfl⟩⟩

/-- The symbol a POPSYM returns, if any, followed by what is left of SYMQ, is SYMQ as it was (R214). -/
theorem popped_append_symq_of_runAll_popsym {s t : State} (h : runAll [.popsym] s = some t) :
    (if t.result0.getLsbD 8 then [t.result0.setWidth 8] else []) ++ t.symq = s.symq ∧ t.ct = s.ct ∧
      Part.acc.Same s t := by
  obtain ⟨u, hu, rfl⟩ := effect_of_runAll_singleton h
  cases hu with
  | popsymEmpty hq => exact ⟨by simp [hq], rfl, rfl, rfl, rfl⟩
  | popsym hq => exact ⟨by simp [hq, poppedWord_valid, setWidth_poppedWord], rfl, rfl, rfl, rfl⟩

/-- However the digits are cut into DECs and the symbols popped, the stream of code words is decoded (R218). -/
theorem State.Decoding.popped_append_symq {os : List DecOp} : ∀ {w u : State} {zs popped : List Sym}, w.Decoding zs (fed os) →
    runDec os w = some (u, popped) → popped ++ u.symq = w.symq ++ zs ∧ u.Decoding [] [] := by
  induction os with
  | nil =>
    intro w u zs popped hw h
    obtain ⟨rfl, rfl⟩ : w = u ∧ [] = popped := by simpa [runDec] using h
    obtain ⟨rfl, -⟩ := hw.eq_nil
    exact ⟨by simp, hw⟩
  | cons o os ih =>
    intro w u zs popped hw h
    cases o with
    | dec n v =>
      obtain ⟨t, ht, h⟩ := Option.bind_eq_some_iff.1 h
      obtain ⟨ys, zs', rfl, hq, hd⟩ := hw.dec ht
      obtain ⟨hu, hdone⟩ := ih hd h
      exact ⟨by rw [hu, hq, List.append_assoc], hdone⟩
    | pop =>
      obtain ⟨t, ht, h⟩ := Option.bind_eq_some_iff.1 h
      obtain ⟨⟨u', rest⟩, hr, he⟩ := Option.map_eq_some_iff.1 h
      obtain ⟨rfl, rfl⟩ := Prod.mk.inj he
      obtain ⟨hq, hct, hacc⟩ := popped_append_symq_of_runAll_popsym ht
      obtain ⟨hu, hdone⟩ := ih (hw.congr hct hacc) hr
      exact ⟨by rw [List.append_assoc, hu, ← List.append_assoc, hq], hdone⟩

/-- A decoder with an empty accumulator gives a sequence back from the code words of its symbols (R218). -/
theorem State.Decoding.givesBack {w : State} {xs : List Sym} {bits : Digits} (hw : w.Decoding xs bits) (hq : w.symq = []) :
    givesBack bits xs w := by
  rintro os u popped - rfl h
  obtain ⟨hu, hdone⟩ := hw.popped_append_symq h
  obtain ⟨-, hacc, hlen⟩ := hdone.eq_nil
  exact ⟨by rw [hu, hq, List.nil_append], hacc, hlen, hdone.ovf, exec_decend_of_empty hlen hdone.ovf⟩

/-- After a DECRST the decoder gives a sequence back from its code words (R215, R218). -/
theorem exists_decrst_givesBack {s : State} {xs : List Sym} (h : s.PrefixFree) (hx : ∀ x ∈ xs, s.codeOf x ≠ []) :
    ∃ w, runAll [.decrst] s = some w ∧ givesBack (xs.flatMap s.codeOf) xs w := by
  refine ⟨((s.setAcc [] 0 false).setSymq []).finishOk, rfl, State.Decoding.givesBack ?_ rfl⟩
  exact ⟨h.congr rfl, hx, rfl, fun _ hne hpre => hne (List.prefix_nil.1 hpre),
    ⟨rfl, fun he => absurd he Bool.false_ne_true⟩, rfl⟩

/-! ## The table of a sequence -/

/-- A first command that completes without an error hands its state on (R131). -/
theorem runAll_cons_of_exec {i : Instr} {is : List Instr} {s t : State} (h : exec i s = .next t) (he : t.ecode = 0) :
    runAll (i :: is) s = runAll is t := by
  rw [runAll, h]
  exact if_pos he

/-- A first command that raises an error ends the run (R131). -/
theorem runAll_cons_of_error {i : Instr} {is : List Instr} {s t : State} (h : exec i s = .next t) (he : t.ecode ≠ 0) :
    runAll (i :: is) s = none := by
  rw [runAll, h]
  exact if_neg he

theorem runAll_append (is js : List Instr) (s : State) : runAll (is ++ js) s = (runAll is s).bind (runAll js) := by
  induction is generalizing s with
  | nil => rfl
  | cons i is ih =>
    obtain ⟨t, ht, -⟩ := everyCommandCompletes i s
    by_cases he : t.ecode = 0
    · rw [List.cons_append, runAll_cons_of_exec ht he, runAll_cons_of_exec ht he, ih]
    · rw [List.cons_append, runAll_cons_of_error ht he, runAll_cons_of_error ht he, Option.bind_none]

theorem wf_freq_of_runAll_incfreq {xs : List Sym} {s t : State} (h : Memory.wf 0 s.freq)
    (hr : runAll (xs.map Instr.incfreq) s = some t) : Memory.wf 0 t.freq := by
  induction xs generalizing s with
  | nil => exact Option.some.inj hr ▸ h
  | cons x xs ih =>
    obtain ⟨-, hr⟩ := runAll_incfreq_cons.1 hr
    exact ih (wf_freq_counted h x) hr

/-- What BUILD leaves is a tree (R150, R156). -/
theorem installTree_isTree {s : State} (h : Memory.wf 0 s.freq) (hne : s.leaves ≠ []) :
    (s.installTree s.leaves).finishOk.IsTree :=
  isTree_of_valid rfl (installTree_descriptorOk s hne (length_leaves_le h)) fun _ =>
    ((keptBut_refl [] _).finishOk .tree (by simp)).treeShape (installTree_treeShape h hne)

/-- The symbols of the tree BUILD leaves are the counted ones (R150, R151). -/
theorem mem_symbols_installTree_iff {s : State} (h : Memory.wf 0 s.freq) (hne : s.leaves ≠ []) (x : Sym) :
    x ∈ (s.installTree s.leaves).finishOk.node.filterMap nodeSymbol ↔ s.freqAt x ≠ 0 := by
  rw [finishOk_node, (installTree_mergeInv h hne).merged.filterMap_nodeSymbol, filterMap_nodeSymbol_leaves h,
    mem_present_iff]

namespace State.IsTree

variable {s : State} (T : s.IsTree)
include T

/-- The table DERIVE writes can be decoded (R173 (b), (c)). -/
theorem prefixFree_derived : s.derived.PrefixFree := by
  refine ⟨wf_tableOf _, fun x y hne hpre => ?_⟩
  have hy : s.derived.codeOf y ≠ [] := fun he => hne (List.prefix_nil.1 (he ▸ hpre))
  exact T.codeWords_prefix_free (T.codeOf_derived_iff.1 ⟨rfl, hne⟩) (T.codeOf_derived_iff.1 ⟨rfl, hy⟩) hpre

/-- DERIVE gives the symbols of the tree code words (R173 (a)). -/
theorem codeOf_derived_ne_nil {x : Sym} (h : x ∈ s.node.filterMap nodeSymbol) : s.derived.codeOf x ≠ [] := by
  obtain ⟨p, hp⟩ := T.exists_mem_codeWords_iff.2 h
  obtain ⟨rfl, hne⟩ := T.codeOf_derived_iff.2 hp
  exact hne

end State.IsTree

/-- The table made from a non-empty sequence can be decoded and has a code word for each of its symbols (R150, R170, R192). -/
theorem exists_table_of_sequence {xs : List Sym} (s : State) (hne : xs ≠ []) (hcount : ∀ x, xs.count x ≤ 16777215) :
    ∃ t, runAll (.clrfreq :: xs.map Instr.incfreq ++ [.build, .derive, .clrout]) s = some t ∧
      (∀ x ∈ xs, t.codeOf x ≠ []) ∧ t.PrefixFree ∧ t.outq = [] := by
  obtain ⟨c, hc, hfreq, -⟩ := countingGivesTheFrequencyTable xs s hcount
  have hwf : Memory.wf 0 c.freq := wf_freq_of_runAll_incfreq (s := (s.setFreq []).finishOk) Memory.wf_nil hc
  have hpresent : ∀ x ∈ xs, c.freqAt x ≠ 0 := fun x hx h0 => by
    have hpos := List.count_pos_iff.2 hx
    rw [← hfreq, h0] at hpos
    exact absurd hpos (lt_irrefl 0)
  have hleaves : c.leaves ≠ [] := fun he => by
    obtain ⟨x, hx⟩ := List.exists_mem_of_ne_nil xs hne
    exact hpresent x hx ((leaves_eq_nil_iff hwf).1 he x)
  have T := installTree_isTree hwf hleaves
  refine ⟨((c.installTree c.leaves).finishOk.derived.setOutq []).finishOk, ?run, fun x hx => ?coded,
    T.prefixFree_derived.congr rfl, rfl⟩
  case run =>
    rw [runAll_append, hc, Option.bind_some, runAll_cons_of_exec (exec_build_of_ne hleaves) rfl,
      runAll_cons_of_exec (exec_derive_of_valid rfl) rfl]
    rfl
  case coded => exact T.codeOf_derived_ne_nil ((mem_symbols_installTree_iff hwf hleaves x).2 (hpresent x hx))

/-! ## The round trip -/

/-- A successful command that does not write CT leaves it alone (R44). -/
theorem ct_eq_of_runAll_singleton {i : Instr} {s t : State} (hi : Part.ct ∉ mayWrite i) (h : runAll [i] s = some t) :
    t.ct = s.ct := by
  obtain ⟨u, hu, rfl⟩ := effect_of_runAll_singleton h
  exact hu.keptBut .ct hi

/-- The encoder leaves CT alone (R190, R191). -/
theorem ct_eq_of_runEnc {es : List EncOp} : ∀ {s t : State} {bits : Digits}, runEnc es s = some (t, bits) → t.ct = s.ct := by
  induction es with
  | nil =>
    intro s t bits h
    obtain ⟨rfl, -⟩ : s = t ∧ [] = bits := by simpa [runEnc] using h
    rfl
  | cons e es ih =>
    intro s t bits h
    cases e with
    | enc x =>
      obtain ⟨v, hv, h⟩ := Option.bind_eq_some_iff.1 h
      exact (ih h).trans (ct_eq_of_runAll_singleton (by simp [mayWrite]) hv)
    | rdout n =>
      obtain ⟨v, hv, h⟩ := Option.bind_eq_some_iff.1 h
      obtain ⟨⟨t', rest⟩, hr, he⟩ := Option.map_eq_some_iff.1 h
      obtain ⟨rfl, -⟩ := Prod.mk.inj he
      exact (ih hr).trans (ct_eq_of_runAll_singleton (by simp [mayWrite]) hv)

/-- Settles O56: the bits read are the code words by the encoder's stream equation, and a decoder over a table whose
code words begin no other one gives the sequence back from them. -/
theorem roundTrip : Obligations.RoundTrip := by
  intro xs s hne hcount
  obtain ⟨t, ht, hcoded, hfree, hout⟩ := exists_table_of_sequence s hne hcount
  refine ⟨t, ht, hcoded, fun es v bits hes henc hrun hempty => ?_, exists_decrst_givesBack hfree hcoded⟩
  have hbits : bits = xs.flatMap t.codeOf := by
    simpa [hempty, hout, henc] using streamIsTheCodeWordsInOrder es t v bits hes hrun
  have hct := ct_eq_of_runEnc hrun
  have hcode := codeOf_congr hct
  refine ⟨hbits, ?_⟩
  rw [hbits, ← hcode]
  exact exists_decrst_givesBack (hfree.congr hct) (hcode ▸ hcoded)

end Sys2Proof.Machine
end

section
/-! SUPPORT. The family of 60_exceptions.md: what an error leaves, which errors a command can raise, and what ESTICKY says about
a run that hides no error. -/

namespace Sys2Proof.Machine

/-! ## One command's errors -/

/-- Settles O11: of the two ways to complete, only an error has a code, and its status is all it writes. -/
theorem failedCommandChangesNothingElse : Obligations.FailedCommandChangesNothingElse := by
  intro s t h he
  rcases complete_next_cases h with ⟨e, -, rfl⟩ | ⟨i, u, -, -, rfl⟩
  · exact finishErr_eq_failedWith e s
  · exact absurd rfl he

/-- Settles O12: a success has ECODE = 0, and an error's code is one listed for the command. -/
theorem errorsOfEachCommand : Obligations.ErrorsOfEachCommand := by
  intro i s t h
  rcases exec_next_cases h with ⟨e, he, rfl⟩ | ⟨u, -, rfl⟩
  · exact .inr he
  · exact .inl rfl

/-! ## A step that hides no error -/

theorem complete_turns {s t : State} (h : complete s = .next t) : t.turns = s.turns := by
  obtain ⟨-, -, -, hturns, -⟩ := complete_host h
  exact hturns

/-- A completion that leaves ESTICKY = 0 raised no error (R32). -/
theorem complete_succeeds_of_esticky {s t : State} (h : complete s = .next t) (ht : t.esticky = false) :
    t.ecode = 0 ∧ t.err = false := by
  rcases complete_next_cases h with ⟨e, -, rfl⟩ | ⟨i, u, -, -, rfl⟩
  · exact absurd ht.symm Bool.false_ne_true
  · exact ⟨rfl, rfl⟩

/-- A write of STATUS hides an error exactly where it writes 1 to bit 2 (R32, R249). -/
theorem hidesErrors_write_status (v : Word) : (Turn.host (.write 0x18 4 v)).hidesErrors = v.getLsbD 2 := by
  simp [Turn.hidesErrors, regAt]

/-- A write of CMD hides an error exactly where it writes SRESET's word (R32, R249). -/
theorem hidesErrors_write_cmd (v : Word) : (Turn.host (.write 0x14 4 v)).hidesErrors = decide (v = 0x01000000#32) := by
  simp [Turn.hidesErrors, regAt]

section Moves

variable {s t : State}

/-- Every move takes one turn off the list, or finds it empty (log 1). -/
theorem Moves.turns_eq_tail (w : Moves s t) : t.turns = s.turns.tail := by
  cases w with
  | endsReset => rfl
  | completes _ _ _ hc => exact complete_turns hc
  | idles => rfl
  | beginsReset h | reads h | writesData h | dropsCmd h | acceptsCmd h | writesStatus h | ignoresWrite h => rw [h]; rfl

/-- Where nothing from a state on hides an error, nothing does after a move either: the turns left are among those to come, and an
accepted command is not SRESET (R249). -/
theorem Moves.unhidden (w : Moves s t) (h : s.Unhidden) : t.Unhidden := by
  obtain ⟨hturns, hcmd, hreset⟩ := h
  have hleft : ∀ x ∈ t.turns, x.hidesErrors = false := fun x hx =>
    hturns x (List.mem_of_mem_tail (w.turns_eq_tail ▸ hx))
  refine ⟨hleft, ?_⟩
  cases w with
  | endsReset _ hr => exact absurd (hr.symm.trans hreset) (by decide)
  | completes _ hr _ hc =>
    have hb := complete_busy hc
    exact ⟨fun ht => absurd (ht.symm.trans hb) (by decide), (complete_resetting hc).trans hr⟩
  | beginsReset h => exact absurd (hturns .reset (by simp [h])) (by decide)
  | acceptsCmd h =>
    have hv := hturns _ (by rw [h]; exact List.mem_cons_self)
    rw [hidesErrors_write_cmd] at hv
    exact ⟨fun _ => of_decide_eq_false hv, hreset⟩
  | _ => exact ⟨hcmd, hreset⟩

end Moves

/-- A step that hides no error does not clear ESTICKY: none of the three causes of R32 is there (R249). -/
theorem esticky_eq_false_of_step {s t : State} (hu : s.Unhidden) (h : step s = .next t) (ht : t.esticky = false) :
    s.esticky = false := by
  by_contra hs
  obtain ⟨hturns, hcmd, hreset⟩ := hu
  rcases onlyThreeThingsClearEsticky s t h (by simpa using hs) ht with ⟨v, ts, hw, hv⟩ | ⟨-, hr | ⟨hb, hc⟩⟩
  · have hclear := hturns (.host (.write 0x18 4 v)) (by simp [hw])
    rw [hidesErrors_write_status, hv] at hclear
    exact absurd hclear (by decide)
  · exact absurd (hr.symm.trans hreset) (by decide)
  · exact hcmd hb hc

/-- A step in which BUSY falls and which leaves ESTICKY = 0 leaves ECODE = 0 and ERR = 0: it completes a command without an error, or
ends a reset sequence (R32, R260). -/
theorem succeeds_of_busy_falls {s t : State} (h : step s = .next t) (ht : t.esticky = false) (hs : s.busy = true)
    (hb : t.busy = false) : t.ecode = 0 ∧ t.err = false := by
  cases moves_of_step h with
  | endsReset => exact ⟨rfl, rfl⟩
  | completes _ _ _ hc => exact complete_succeeds_of_esticky hc ht
  | beginsReset | acceptsCmd => exact absurd hb.symm Bool.false_ne_true
  | _ => exact absurd (hs.symm.trans hb) (by decide)

/-! ## A run that hides no error -/

/-- Settles O60: by induction on the steps. The rest of the run gives ESTICKY = 0 after the first step, which carries it back to
the start and makes the first step's completion, if it is one, a success. -/
theorem noErrorIsHidden : Obligations.NoErrorIsHidden := by
  intro k
  induction k with
  | zero =>
    intro s t _ hrun ht
    rw [reaches_zero] at hrun
    subst hrun
    exact ⟨fun j hj => ⟨s, by simpa [Nat.le_zero.1 hj] using ht⟩, fun j hj => absurd hj (Nat.not_lt_zero j)⟩
  | succ k ih =>
    intro s t hu hrun ht
    obtain ⟨v, hstep, hrest⟩ := (reaches_succ k s t).1 hrun
    obtain ⟨hflags, hcompletions⟩ := ih v t ((moves_of_step hstep).unhidden hu) hrest ht
    have hv : v.esticky = false := by simpa using hflags 0 (Nat.zero_le k)
    constructor
    · rintro (_ | j) hj
      · exact ⟨s, (reaches_zero s s).2 rfl, esticky_eq_false_of_step hu hstep hv⟩
      · obtain ⟨u, hreach, hflag⟩ := hflags j (Nat.le_of_succ_le_succ hj)
        exact ⟨u, (reaches_succ j s u).2 ⟨v, hstep, hreach⟩, hflag⟩
    · rintro (_ | j) hj
      · exact ⟨s, v, (reaches_zero s s).2 rfl, hstep, succeeds_of_busy_falls hstep hv⟩
      · obtain ⟨u, w, hreach, hnext, hsuccess⟩ := hcompletions j (Nat.lt_of_succ_lt_succ hj)
        exact ⟨u, w, (reaches_succ j s u).2 ⟨v, hstep, hreach⟩, hnext, hsuccess⟩

end Sys2Proof.Machine
end

section
/-! SUPPORT. The hardware reset sequence of 70_reset_and_hazards.md: only the engine's turn ends it (R260). -/

namespace Sys2Proof.Machine

/-- A run of one step more is a run and a last step. -/
theorem reaches_succ_last (k : Nat) : ∀ s t : State, Reaches (k + 1) s t ↔ ∃ u, Reaches k s u ∧ step u = .next t := by
  induction k with
  | zero => simp [reaches_succ]
  | succ k ih =>
    intro s t
    calc Reaches (k + 1 + 1) s t
      _ ↔ ∃ v, step s = .next v ∧ ∃ u, Reaches k v u ∧ step u = .next t := by simp only [reaches_succ (k + 1), ih]
      _ ↔ ∃ u, (∃ v, step s = .next v ∧ Reaches k v u) ∧ step u = .next t :=
        ⟨fun ⟨v, hv, u, hu, hl⟩ => ⟨u, ⟨v, hv, hu⟩, hl⟩, fun ⟨u, ⟨v, hv, hu⟩, hl⟩ => ⟨v, hv, u, hu, hl⟩⟩
      _ ↔ ∃ u, Reaches (k + 1) s u ∧ step u = .next t := by simp only [reaches_succ k]

/-- The reset sequence is running, with BUSY = 1 (R260). -/
def State.InReset (s : State) : Prop := s.busy = true ∧ s.resetting = true

theorem beginReset_inReset (s : State) : s.beginReset.InReset := ⟨rfl, rfl⟩

theorem step_of_reset_turn {s : State} {ts : List Turn} (h : s.turns = .reset :: ts) :
    step s = .next (s.setTurns ts).beginReset := by
  simp [step, advance, h, serve]

/-- Where the engine moves next, on its own turn or past the end of the turns, the step is its move (log 1). -/
theorem step_of_engineNext {s : State} (h : s.EngineNext) : step s = engineTurn (s.setTurns s.turns.tail) := by
  rcases h with h | ⟨ts, h⟩
  · have hs : s.setTurns s.turns.tail = s := by
      rw [h]
      exact congrArg s.setTurns h.symm
    rw [hs]
    simp [step, advance, h]
  · simp [step, advance, h, serve]

theorem step_of_engineNext_resetting {s : State} (h : s.EngineNext) (hr : s.resetting = true) :
    step s = .next (s.setTurns s.turns.tail).endReset :=
  (step_of_engineNext h).trans (if_pos hr)

theorem not_engineNext_of_ne {s : State} {x : Turn} {ts : List Turn} (h : s.turns = x :: ts) (hx : x ≠ .engine) :
    ¬ s.EngineNext := by
  simp [State.EngineNext, h, hx]

/-- A move that is not the engine's keeps a running reset sequence: host accesses and a second reset leave BUSY = 1 (R260). -/
theorem Moves.inReset {s t : State} (w : Moves s t) (h : s.InReset) (hne : ¬ s.EngineNext) : t.InReset := by
  cases w with
  | endsReset he | completes he | idles he => exact absurd he hne
  | beginsReset => exact beginReset_inReset _
  | acceptsCmd _ hb =>
    obtain ⟨hbusy, -⟩ := h
    exact absurd (hb.symm.trans hbusy) (by decide)
  | _ => exact h

/-- Through turns that are not the engine's a running reset sequence keeps running, and each step takes one of them. -/
theorem inReset_of_reaches {s : State} {mid rest : List Turn} (h : s.InReset) (hs : s.turns = mid ++ rest)
    (hmid : Turn.engine ∉ mid) {j : Nat} : ∀ {u : State}, j ≤ mid.length → Reaches j s u →
    u.InReset ∧ u.turns = mid.drop j ++ rest := by
  induction j with
  | zero =>
    intro u _ hu
    rw [reaches_zero] at hu
    subst hu
    exact ⟨h, hs⟩
  | succ j ih =>
    intro u hj hu
    obtain ⟨v, hv, hstep⟩ := (reaches_succ_last j s u).1 hu
    obtain ⟨hin, hturns⟩ := ih (Nat.le_of_succ_le hj) hv
    rw [List.drop_eq_getElem_cons hj] at hturns
    have hne : mid[j] ≠ .engine := ne_of_mem_of_not_mem (List.getElem_mem hj) hmid
    have w := moves_of_step hstep
    exact ⟨w.inReset hin (not_engineNext_of_ne hturns hne), w.turns_eq_tail.trans (congrArg List.tail hturns)⟩

/-- Settles O26: the start and the end are one step each, and between them no move but the engine's ends the sequence. -/
theorem hardwareResetSequence : Obligations.HardwareResetSequence := by
  refine ⟨fun s ts => step_of_reset_turn, fun s hr he => step_of_engineNext_resetting he hr, ?_⟩
  intro s mid rest hmid hrest hs
  have hstart : step s = .next (s.setTurns (mid ++ rest)).beginReset := step_of_reset_turn hs
  have hrun : ∀ {k u}, Reaches (k + 1) s u → Reaches k (s.setTurns (mid ++ rest)).beginReset u := by
    intro k u hu
    obtain ⟨v, hv, hreach⟩ := (reaches_succ k s u).1 hu
    obtain rfl := Host.Outcome.next.inj (hstart.symm.trans hv)
    exact hreach
  constructor
  · intro j u hj hu
    exact (inReset_of_reaches (beginReset_inReset _) rfl hmid hj (hrun hu)).1
  · intro t ht
    obtain ⟨u, hu, hend⟩ := (reaches_succ_last mid.length _ t).1 (hrun ht)
    obtain ⟨⟨-, hr⟩, hturns⟩ := inReset_of_reaches (beginReset_inReset _) rfl hmid le_rfl hu
    rw [List.drop_length, List.nil_append] at hturns
    have he : u.EngineNext := by rwa [State.EngineNext, hturns]
    rw [step_of_engineNext_resetting he hr, hturns] at hend
    cases hend
    rfl

end Sys2Proof.Machine
end
